-- ==== Sys2Proof/Word.lean ====
section
/-! DEFINITION. The two word types of the block: the byte handed to the sink and the 16-bit command word (R7, R9). -/

namespace Sys2Proof

/-- A byte, `b[7:0]` (R9). -/
abbrev Byte := BitVec 8

/-- A command word, `word[15:0]`, `WORD_W = 16` (R7, R9). -/
abbrev Word := BitVec 16

end Sys2Proof
end

