-- ==== Sys2Proof/Config.lean ====
section
/-! DEFINITION. The closed enumerations of the spec, and the parameters the spec leaves OPEN (R8), each an opaque
constant, so that no proof can rest on a value of it. The literals the source fixes are in Machine/Operands.lean, the
code tables in Decode.lean. -/

namespace Sys2Proof

/-- Object types, the closed enumeration of R13 and R98. -/
inductive ObjectType where
  | engine | switch | accessory | train | route
deriving DecidableEq, Repr

/-- Command classes, the closed enumeration of R86 and R133. -/
inductive CmdClass where
  | action | extended | relativeSpeed | absoluteSpeed
deriving DecidableEq, Repr

/-- Members of EngineAction, the table of R221. -/
inductive EngineAction where
  | forward | toggleDirection | reverse | boost | frontCoupler | rearCoupler | brake
  | aux1Off | aux1Option1 | aux1Option2 | aux1On
  | aux2Off | aux2Option1 | aux2Option2 | aux2On
  | horn1 | bell | letOff | horn2
deriving DecidableEq, Repr

/-- The direction flag of an Engine entity; it has no bit encoding (R34). -/
inductive Direction where
  | forward | reverse
deriving DecidableEq, Repr

/-- How far `RAW_MAX` exceeds its least value 6: OPEN (R8, D12; log 5). -/
opaque Config.rawMaxBeyondSix : Nat

/-- `RAW_MAX`, the largest raw burst in bytes: a model argument, at least 6 (R8, D12; log 5). -/
def Config.rawMax : Nat := Config.rawMaxBeyondSix + 6

/-- `TEST_HORN_ADDR`, the engine address of the horn command after the test pattern: OPEN (R8, D21; log 6). -/
opaque Config.testHornAddr : Nat

/-- `FACADE_UPDATE_ON_UNAVAILABLE`, whether a facade setter still updates the Engine entity when the transmit
reports UNAVAILABLE: OPEN (R8, R223, D20; log 7). -/
opaque Config.facadeUpdateOnUnavailable : Bool

/-- The value of `word_reg` after reset: unspecified, any value (R37, U14; log 8). -/
opaque Config.wordRegReset : Word

/-- What the byte multiplexer would offer at `byte_idx = 3`, which never occurs (R195, R199; log 9). -/
opaque Config.byteAtIndexThree : Word → Byte

end Sys2Proof
end

