-- ==== Sys2Proof/Syntax.lean ====
section
/-! DEFINITION. Instr: one constructor per row of spec/opcode_table.json (57 rows). Numeric operands are unbounded
naturals, as R97 and D6 let a model take them; the meanings mask and clamp. An `engine` operand is the index of an
Engine entity of the caller (R35). -/

namespace Sys2Proof

/-- The operations and forms of the opcode table, in the table's order. -/
inductive Instr where
  /-- `MAKE_WORD`: request op `000` (R120). -/
  | makeWord (type : ObjectType) (address : Nat) (cls : CmdClass) (data : Nat)
  /-- `ENGINE_ACTION_WORD`: request op `001` (R130). -/
  | engineActionWord (address : Nat) (action : Nat)
  /-- `ENGINE_SPEED_WORD`: request op `010` (R131). -/
  | engineSpeedWord (address : Nat) (speed : Nat)
  /-- `SET_SINK`: request op `011` (R151). -/
  | setSink
  /-- `SEND_FRAME`: request op `100` (R152). -/
  | sendFrame (word : Word)
  /-- `SEND_FRAME_REPEATED`: request op `101` (R154). -/
  | sendFrameRepeated (word : Word) (repetitions : Nat)
  /-- `SEND_RAW_BYTES`: request op `110` (R156). -/
  | sendRawBytes (data : List Byte)
  /-- `SYSTEM_HALT`: request op `111` (R155). -/
  | systemHalt
  /-- `MAKE_WORD.ENGINE`: the Engine form of MAKE_WORD (R122). -/
  | makeWordEngine (address : Nat) (cls : CmdClass) (data : Nat)
  /-- `MAKE_WORD.SWITCH`: the Switch form of MAKE_WORD (R123). -/
  | makeWordSwitch (address : Nat) (cls : CmdClass) (data : Nat)
  /-- `MAKE_WORD.ACCESSORY`: the Accessory form of MAKE_WORD (R124). -/
  | makeWordAccessory (address : Nat) (cls : CmdClass) (data : Nat)
  /-- `MAKE_WORD.TRAIN`: the Train form of MAKE_WORD (R125). -/
  | makeWordTrain (address : Nat) (cls : CmdClass) (data : Nat)
  /-- `MAKE_WORD.ROUTE`: the Route form of MAKE_WORD (R126). -/
  | makeWordRoute (address : Nat) (cls : CmdClass) (data : Nat)
  /-- `ENGINE_ACTION_WORD.WORD`: pattern `00aaaaaaa00ddddd` (R130). -/
  | engineActionWordWord (address : Nat) (action : Nat)
  /-- `ENGINE_SPEED_WORD.WORD`: pattern `00aaaaaaa11sssss` (R131). -/
  | engineSpeedWordWord (address : Nat) (speed : Nat)
  /-- `HALT_WORD`: the all-ones word SYSTEM_HALT frames, ten times (R155). -/
  | haltWord
  /-- `FRAME`: the frame `0xFE`, word high byte, word low byte (R92). -/
  | frame (high low : Byte)
  /-- `CLASS.ACTION`: MAKE_WORD with this class code (R86; log 2). -/
  | classAction (type : ObjectType) (address : Nat) (data : Nat)
  /-- `CLASS.EXTENDED`: MAKE_WORD with this class code (R86; log 2). -/
  | classExtended (type : ObjectType) (address : Nat) (data : Nat)
  /-- `CLASS.RELATIVE_SPEED`: MAKE_WORD with this class code (R86; log 2). -/
  | classRelativeSpeed (type : ObjectType) (address : Nat) (data : Nat)
  /-- `CLASS.ABSOLUTE_SPEED`: MAKE_WORD with this class code (R86; log 2). -/
  | classAbsoluteSpeed (type : ObjectType) (address : Nat) (data : Nat)
  /-- `TYPE.ENGINE`: MAKE_WORD with this `req_type` code (R98; log 2). -/
  | typeEngine (address : Nat) (cls : CmdClass) (data : Nat)
  /-- `TYPE.SWITCH`: MAKE_WORD with this `req_type` code (R98; log 2). -/
  | typeSwitch (address : Nat) (cls : CmdClass) (data : Nat)
  /-- `TYPE.ACCESSORY`: MAKE_WORD with this `req_type` code (R98; log 2). -/
  | typeAccessory (address : Nat) (cls : CmdClass) (data : Nat)
  /-- `TYPE.TRAIN`: MAKE_WORD with this `req_type` code (R98; log 2). -/
  | typeTrain (address : Nat) (cls : CmdClass) (data : Nat)
  /-- `TYPE.ROUTE`: MAKE_WORD with this `req_type` code (R98; log 2). -/
  | typeRoute (address : Nat) (cls : CmdClass) (data : Nat)
  /-- `ACT.FORWARD`: the Engine action word of this code (R221). -/
  | actForward (address : Nat)
  /-- `ACT.TOGGLE_DIRECTION`: the Engine action word of this code (R221). -/
  | actToggleDirection (address : Nat)
  /-- `ACT.REVERSE`: the Engine action word of this code (R221). -/
  | actReverse (address : Nat)
  /-- `ACT.BOOST`: the Engine action word of this code (R221). -/
  | actBoost (address : Nat)
  /-- `ACT.FRONT_COUPLER`: the Engine action word of this code (R221). -/
  | actFrontCoupler (address : Nat)
  /-- `ACT.REAR_COUPLER`: the Engine action word of this code (R221). -/
  | actRearCoupler (address : Nat)
  /-- `ACT.BRAKE`: the Engine action word of this code (R221). -/
  | actBrake (address : Nat)
  /-- `ACT.AUX1_OFF`: the Engine action word of this code (R221). -/
  | actAux1Off (address : Nat)
  /-- `ACT.AUX1_OPTION1`: the Engine action word of this code (R221). -/
  | actAux1Option1 (address : Nat)
  /-- `ACT.AUX1_OPTION2`: the Engine action word of this code (R221). -/
  | actAux1Option2 (address : Nat)
  /-- `ACT.AUX1_ON`: the Engine action word of this code (R221). -/
  | actAux1On (address : Nat)
  /-- `ACT.AUX2_OFF`: the Engine action word of this code (R221). -/
  | actAux2Off (address : Nat)
  /-- `ACT.AUX2_OPTION1`: the Engine action word of this code (R221). -/
  | actAux2Option1 (address : Nat)
  /-- `ACT.AUX2_OPTION2`: the Engine action word of this code (R221). -/
  | actAux2Option2 (address : Nat)
  /-- `ACT.AUX2_ON`: the Engine action word of this code (R221). -/
  | actAux2On (address : Nat)
  /-- `ACT.HORN1`: the Engine action word of this code (R221). -/
  | actHorn1 (address : Nat)
  /-- `ACT.BELL`: the Engine action word of this code (R221). -/
  | actBell (address : Nat)
  /-- `ACT.LET_OFF`: the Engine action word of this code (R221). -/
  | actLetOff (address : Nat)
  /-- `ACT.HORN2`: the Engine action word of this code (R221). -/
  | actHorn2 (address : Nat)
  /-- `FACADE.set_speed`: R228. -/
  | facadeSetSpeed (engine : Nat) (speed : Nat)
  /-- `FACADE.set_direction_forward`: R230. -/
  | facadeSetDirectionForward (engine : Nat)
  /-- `FACADE.set_direction_reverse`: R231. -/
  | facadeSetDirectionReverse (engine : Nat)
  /-- `FACADE.open_front_coupler`: R232. -/
  | facadeOpenFrontCoupler (engine : Nat)
  /-- `FACADE.open_rear_coupler`: R233. -/
  | facadeOpenRearCoupler (engine : Nat)
  /-- `FACADE.boost`: R234. -/
  | facadeBoost (engine : Nat)
  /-- `FACADE.brake`: R235. -/
  | facadeBrake (engine : Nat)
  /-- `FACADE.blow_horn`: R236. -/
  | facadeBlowHorn (engine : Nat)
  /-- `FACADE.ring_bell`: R237. -/
  | facadeRingBell (engine : Nat)
  /-- `FACADE.attach_sink`: R238. -/
  | facadeAttachSink
  /-- `FACADE.system_halt`: R239. -/
  | facadeSystemHalt
  /-- `FACADE.raw_burst`: R240. -/
  | facadeRawBurst (data : List Byte)
deriving DecidableEq, Repr

end Sys2Proof
end

