-- ==== Sys2Proof/Decode.lean ====
section
/-! DEFINITION. The spec's code tables (R81 to R86, R96, R98, R221), the request port (R96, R97), reading a command
word or a frame (R85, R104), the total decoder of presented records, the encoder, and the host's word interface.

A RECORD is how this model writes a presented instruction as bytes: one byte that names the table's format, then the
bits the spec gives that format. The spec gives each format its bits and no common binary form (R80, R103), so the
format byte and the places of the operands are the model's (DESIGN CHOICE, log 1). -/

namespace Sys2Proof

/-! ### Code tables -/

/-- `req_type` codes (R98). -/
def ObjectType.code : ObjectType → BitVec 3
  | .engine => 0b000#3
  | .switch => 0b001#3
  | .accessory => 0b010#3
  | .train => 0b011#3
  | .route => 0b100#3

/-- The object type of a `req_type` code; 5, 6 and 7 have none (R98). -/
def ObjectType.ofCode (c : BitVec 3) : Option ObjectType :=
  if c = 0b000#3 then some .engine
  else if c = 0b001#3 then some .switch
  else if c = 0b010#3 then some .accessory
  else if c = 0b011#3 then some .train
  else if c = 0b100#3 then some .route
  else none

/-- Command class codes, the value of `word[6:5]` (R86). -/
def CmdClass.code : CmdClass → BitVec 2
  | .action => 0b00#2
  | .extended => 0b01#2
  | .relativeSpeed => 0b10#2
  | .absoluteSpeed => 0b11#2

/-- Every two-bit pattern is a class (R133). -/
def CmdClass.ofCode (c : BitVec 2) : CmdClass :=
  if c = 0b00#2 then .action
  else if c = 0b01#2 then .extended
  else if c = 0b10#2 then .relativeSpeed
  else .absoluteSpeed

/-- The table `ACT` (R221): `horn1` follows from the source's frame; every other number is PRESUMED (log 10). -/
def EngineAction.code : EngineAction → BitVec 5
  | .forward => 0b00000#5
  | .toggleDirection => 0b00001#5
  | .reverse => 0b00011#5
  | .boost => 0b00100#5
  | .frontCoupler => 0b00101#5
  | .rearCoupler => 0b00110#5
  | .brake => 0b00111#5
  | .aux1Off => 0b01000#5
  | .aux1Option1 => 0b01001#5
  | .aux1Option2 => 0b01010#5
  | .aux1On => 0b01011#5
  | .aux2Off => 0b01100#5
  | .aux2Option1 => 0b01101#5
  | .aux2Option2 => 0b01110#5
  | .aux2On => 0b01111#5
  | .horn1 => 0b11100#5
  | .bell => 0b11101#5
  | .letOff => 0b11110#5
  | .horn2 => 0b11111#5

/-- Every member of EngineAction, in the order of R221. -/
def EngineAction.all : List EngineAction :=
  [.forward, .toggleDirection, .reverse, .boost, .frontCoupler, .rearCoupler, .brake] ++
  [.aux1Off, .aux1Option1, .aux1Option2, .aux1On, .aux2Off, .aux2Option1, .aux2Option2, .aux2On] ++
  [.horn1, .bell, .letOff, .horn2]

/-- The named action of a 5-bit code, where R221 names one. -/
def EngineAction.ofCode (c : BitVec 5) : Option EngineAction :=
  EngineAction.all.find? (fun a => a.code == c)

/-- The row `ACT.<name>` of an action. -/
def EngineAction.instr : EngineAction → Nat → Instr
  | .forward => .actForward
  | .toggleDirection => .actToggleDirection
  | .reverse => .actReverse
  | .boost => .actBoost
  | .frontCoupler => .actFrontCoupler
  | .rearCoupler => .actRearCoupler
  | .brake => .actBrake
  | .aux1Off => .actAux1Off
  | .aux1Option1 => .actAux1Option1
  | .aux1Option2 => .actAux1Option2
  | .aux1On => .actAux1On
  | .aux2Off => .actAux2Off
  | .aux2Option1 => .actAux2Option1
  | .aux2Option2 => .actAux2Option2
  | .aux2On => .actAux2On
  | .horn1 => .actHorn1
  | .bell => .actBell
  | .letOff => .actLetOff
  | .horn2 => .actHorn2

/-! ### The request port -/

/-- The request port (R96, R97): every field is present with each request; an operation reads the fields it uses. -/
structure Request where
  op   : BitVec 3
  type : BitVec 3
  addr : Byte
  cls  : BitVec 2
  data : Byte
  word : Word
  reps : Byte
  raw  : List Byte
deriving DecidableEq, Repr

/-- Why a record or a request has no instruction. -/
inductive DecodeError where
  /-- The record holds no format byte, or a format byte that names no format. -/
  | unknownFormat
  /-- The record's bytes are too few or too many for its format. -/
  | wrongLength
  /-- A byte holds more than its field's bits. -/
  | fieldTooWide
  /-- `req_type` 5, 6 or 7 (R98, U5). -/
  | reservedType (code : Nat)
  /-- A raw list that is empty or longer than `RAW_MAX` (R156, U4). -/
  | rawLength (length : Nat)
  /-- A word that no row's pattern matches (R90). -/
  | unassignedWord (word : Word)
  /-- A word that is no word of the format it is given under. -/
  | otherFormat
  /-- A frame whose first byte is not `0xFE` (R92). -/
  | notHeader
deriving DecidableEq, Repr

/-- A raw burst has 1 to `RAW_MAX` bytes (R97, R156). -/
def rawLengthOk (n : Nat) : Bool := decide (1 ≤ n) && decide (n ≤ Config.rawMax)

/-- The instruction under a raw length check. -/
def withRaw (raw : List Byte) (i : Instr) : Except DecodeError Instr :=
  if rawLengthOk raw.length then .ok i else .error (.rawLength raw.length)

/-- The instruction under an object type read from a code. -/
def withType (code : BitVec 3) (k : ObjectType → Instr) : Except DecodeError Instr :=
  match ObjectType.ofCode code with
  | some t => .ok (k t)
  | none => .error (.reservedType code.toNat)

/-- The operation a request presents (R96, R97, R98). -/
def decodeRequest (r : Request) : Except DecodeError Instr :=
  if r.op = 0b000#3 then
    withType r.type fun t => .makeWord t r.addr.toNat (CmdClass.ofCode r.cls) r.data.toNat
  else if r.op = 0b001#3 then .ok (.engineActionWord r.addr.toNat r.data.toNat)
  else if r.op = 0b010#3 then .ok (.engineSpeedWord r.addr.toNat r.data.toNat)
  else if r.op = 0b011#3 then .ok .setSink
  else if r.op = 0b100#3 then .ok (.sendFrame r.word)
  else if r.op = 0b101#3 then .ok (.sendFrameRepeated r.word r.reps.toNat)
  else if r.op = 0b110#3 then withRaw r.raw (.sendRawBytes r.raw)
  else .ok .systemHalt

/-! ### Reading a command word and a frame -/

/-- The four fields of a command word (R84). -/
structure WordFields where
  type    : ObjectType
  address : Nat
  cls     : CmdClass
  data    : Nat
deriving DecidableEq, Repr

/-- The fields of a word, cut as its leading bits say (R85, R104); none for an unassigned word (R90). -/
def readWord (w : Word) : Option WordFields :=
  let cls := CmdClass.ofCode (w.extractLsb' 5 2)
  let data := (w.extractLsb' 0 5).toNat
  if w.extractLsb' 14 2 = 0b00#2 then some ⟨.engine, (w.extractLsb' 7 7).toNat, cls, data⟩
  else if w.extractLsb' 14 2 = 0b01#2 then some ⟨.switch, (w.extractLsb' 7 7).toNat, cls, data⟩
  else if w.extractLsb' 14 2 = 0b10#2 then some ⟨.accessory, (w.extractLsb' 7 7).toNat, cls, data⟩
  else if w.extractLsb' 11 5 = 0b11001#5 then some ⟨.train, (w.extractLsb' 7 4).toNat, cls, data⟩
  else if w.extractLsb' 12 4 = 0b1101#4 then some ⟨.route, (w.extractLsb' 7 5).toNat, cls, data⟩
  else none

/-- What R104's decoder of the block's output says of a frame. -/
inductive FrameReading where
  | noFrame
  | halt
  | assigned (fields : WordFields)
  | unassigned
deriving DecidableEq, Repr

/-- R104's decoder of the block's output: byte 0 must be the header, and the word is byte 1 and byte 2. In a burst they
are those of its first frame; the frames after it are copies (R93). -/
def readFrame (bytes : List Byte) : FrameReading :=
  match bytes with
  | header :: high :: low :: _ =>
    if header = 0xFE#8 then
      let w : Word := high ++ low
      if w = 0xFFFF#16 then .halt
      else match readWord w with
        | some f => .assigned f
        | none => .unassigned
    else .noFrame
  | _ => .noFrame

/-- The object-type row of a word (formats W7, W4 and W5). -/
def decodeMake (w : Word) : Except DecodeError Instr :=
  match readWord w with
  | some ⟨.engine, a, c, d⟩ => .ok (.makeWordEngine a c d)
  | some ⟨.switch, a, c, d⟩ => .ok (.makeWordSwitch a c d)
  | some ⟨.accessory, a, c, d⟩ => .ok (.makeWordAccessory a c d)
  | some ⟨.train, a, c, d⟩ => .ok (.makeWordTrain a c d)
  | some ⟨.route, a, c, d⟩ => .ok (.makeWordRoute a c d)
  | none => .error (.unassignedWord w)

/-- The rows `ENGINE_ACTION_WORD.WORD` and `ENGINE_SPEED_WORD.WORD` (R130, R131). -/
def decodeEngine (w : Word) : Except DecodeError Instr :=
  match readWord w with
  | some ⟨.engine, a, .action, d⟩ => .ok (.engineActionWordWord a d)
  | some ⟨.engine, a, .absoluteSpeed, d⟩ => .ok (.engineSpeedWordWord a d)
  | _ => .error .otherFormat

/-- The rows `ACT.<name>` (R221). -/
def decodeAct (w : Word) : Except DecodeError Instr :=
  match readWord w, EngineAction.ofCode (w.extractLsb' 0 5) with
  | some ⟨.engine, a, .action, _⟩, some act => .ok (act.instr a)
  | _, _ => .error .otherFormat

/-- The MOST SPECIFIC row whose pattern a bare word matches. The table's patterns overlap on purpose (R103): the halt
word, then `ACT.<name>`, then the two Engine words, then the object type (log 3). -/
def decodeWord (w : Word) : Except DecodeError Instr :=
  if w = 0xFFFF#16 then .ok .haltWord
  else match decodeAct w with
    | .ok i => .ok i
    | .error _ => match decodeEngine w with
      | .ok i => .ok i
      | .error _ => decodeMake w

/-! ### Records -/

/-- The format byte of a record (log 1). -/
inductive Format where
  | req | word | frame | cls | type | make | engine | facade
deriving DecidableEq, Repr

/-- The number of a format (log 1). -/
def Format.code : Format → Byte
  | .req => 0x00#8
  | .word => 0x01#8
  | .frame => 0x02#8
  | .cls => 0x03#8
  | .type => 0x04#8
  | .make => 0x05#8
  | .engine => 0x06#8
  | .facade => 0x07#8

/-- The request a record's bytes present; bytes past the eighth are `req_raw`. -/
def readRequest (bytes : List Byte) : Except DecodeError Request :=
  match bytes with
  | op :: type :: addr :: cls :: data :: high :: low :: reps :: raw =>
    if op.toNat < 8 ∧ type.toNat < 8 ∧ cls.toNat < 4 then
      .ok ⟨op.setWidth 3, type.setWidth 3, addr, cls.setWidth 2, data, high ++ low, reps, raw⟩
    else .error .fieldTooWide
  | _ => .error .wrongLength

/-- Format REQ. -/
def decodeReq (bytes : List Byte) : Except DecodeError Instr :=
  match readRequest bytes with
  | .ok r => decodeRequest r
  | .error e => .error e

/-- Format FRAME: the three bytes in stream order (R92). -/
def decodeFrame (bytes : List Byte) : Except DecodeError Instr :=
  match bytes with
  | [header, high, low] => if header = 0xFE#8 then .ok (.frame high low) else .error .notHeader
  | _ => .error .wrongLength

/-- The two bytes of a word, high byte first (R55), given to `k`. -/
def decodeTwo (k : Word → Except DecodeError Instr) (bytes : List Byte) : Except DecodeError Instr :=
  match bytes with
  | [high, low] => k (high ++ low)
  | _ => .error .wrongLength

/-- The row `CLASS.<name>` of a class. -/
def CmdClass.instr (c : CmdClass) (t : ObjectType) (a d : Nat) : Instr :=
  match c with
  | .action => .classAction t a d
  | .extended => .classExtended t a d
  | .relativeSpeed => .classRelativeSpeed t a d
  | .absoluteSpeed => .classAbsoluteSpeed t a d

/-- The row `TYPE.<name>` of an object type. -/
def ObjectType.instr (t : ObjectType) (a : Nat) (c : CmdClass) (d : Nat) : Instr :=
  match t with
  | .engine => .typeEngine a c d
  | .switch => .typeSwitch a c d
  | .accessory => .typeAccessory a c d
  | .train => .typeTrain a c d
  | .route => .typeRoute a c d

/-- Format CLASS: the class code, then the object type, address and data MAKE_WORD takes with it (R86; log 2). -/
def decodeClass (bytes : List Byte) : Except DecodeError Instr :=
  match bytes with
  | [code, type, addr, data] =>
    if code.toNat < 4 ∧ type.toNat < 8 then
      withType (type.setWidth 3) fun t => (CmdClass.ofCode (code.setWidth 2)).instr t addr.toNat data.toNat
    else .error .fieldTooWide
  | _ => .error .wrongLength

/-- Format TYPE: the type code, then the address, class and data MAKE_WORD takes with it (R98; log 2). -/
def decodeType (bytes : List Byte) : Except DecodeError Instr :=
  match bytes with
  | [code, addr, cls, data] =>
    if code.toNat < 8 ∧ cls.toNat < 4 then
      withType (code.setWidth 3) fun t => t.instr addr.toNat (CmdClass.ofCode (cls.setWidth 2)) data.toNat
    else .error .fieldTooWide
  | _ => .error .wrongLength

/-- An entity index as two bytes (log 1). -/
def engineIndex (high low : Byte) : Nat := high.toNat * 256 + low.toNat

/-- Format FACADE: the row's place among the table's FACADE rows, then its operands (R103; log 1). -/
def decodeFacade (bytes : List Byte) : Except DecodeError Instr :=
  match bytes with
  | [] => .error .wrongLength
  | row :: rest =>
    if row = 9#8 then (if rest = [] then .ok .facadeAttachSink else .error .wrongLength)
    else if row = 10#8 then (if rest = [] then .ok .facadeSystemHalt else .error .wrongLength)
    else if row = 11#8 then withRaw rest (.facadeRawBurst rest)
    else if row = 0#8 then
      match rest with
      | [h, l, v] => .ok (.facadeSetSpeed (engineIndex h l) v.toNat)
      | _ => .error .wrongLength
    else
      match rest with
      | [h, l] =>
        let e := engineIndex h l
        if row = 1#8 then .ok (.facadeSetDirectionForward e)
        else if row = 2#8 then .ok (.facadeSetDirectionReverse e)
        else if row = 3#8 then .ok (.facadeOpenFrontCoupler e)
        else if row = 4#8 then .ok (.facadeOpenRearCoupler e)
        else if row = 5#8 then .ok (.facadeBoost e)
        else if row = 6#8 then .ok (.facadeBrake e)
        else if row = 7#8 then .ok (.facadeBlowHorn e)
        else if row = 8#8 then .ok (.facadeRingBell e)
        else .error .fieldTooWide
      | _ => .error .wrongLength

/-- The decoder: total on any bytes. -/
def decode (bytes : List Byte) : Except DecodeError Instr :=
  match bytes with
  | [] => .error .unknownFormat
  | f :: rest =>
    if f = Format.req.code then decodeReq rest
    else if f = Format.word.code then decodeTwo decodeWord rest
    else if f = Format.frame.code then decodeFrame rest
    else if f = Format.cls.code then decodeClass rest
    else if f = Format.type.code then decodeType rest
    else if f = Format.make.code then decodeTwo decodeMake rest
    else if f = Format.engine.code then decodeTwo decodeEngine rest
    else if f = Format.facade.code then decodeFacade rest
    else .error .unknownFormat

/-! ### The encoder -/

/-- A request with every operand field zero. -/
def Request.zero (op : BitVec 3) : Request := ⟨op, 0#3, 0#8, 0#2, 0#8, 0#16, 0#8, []⟩

/-- The bytes of a request in a record, the fields in the order of R97. -/
def Request.bytes (r : Request) : List Byte :=
  [r.op.setWidth 8, r.type.setWidth 8, r.addr, r.cls.setWidth 8, r.data] ++
  [r.word.extractLsb' 8 8, r.word.extractLsb' 0 8, r.reps] ++ r.raw

/-- A record of format REQ. -/
def reqRecord (r : Request) : List Byte := Format.req.code :: r.bytes

/-- A record that holds one word, high byte first. -/
def wordRecord (f : Format) (w : Nat) : List Byte :=
  [f.code, BitVec.ofNat 8 (w / 256), BitVec.ofNat 8 w]

/-- A word by the numeric formula of R120: BASE + address * 128 + class * 32 + data. -/
def fieldsNumber (base address : Nat) (c : CmdClass) (data : Nat) : Nat :=
  base + address * 128 + c.code.toNat * 32 + data

/-- A record of format CLASS. -/
def classRecord (c : CmdClass) (t : ObjectType) (a d : Nat) : List Byte :=
  [Format.cls.code, c.code.setWidth 8, t.code.setWidth 8, BitVec.ofNat 8 a, BitVec.ofNat 8 d]

/-- A record of format TYPE. -/
def typeRecord (t : ObjectType) (a : Nat) (c : CmdClass) (d : Nat) : List Byte :=
  [Format.type.code, t.code.setWidth 8, BitVec.ofNat 8 a, c.code.setWidth 8, BitVec.ofNat 8 d]

/-- A record of a row `ACT.<name>`: the Engine action word with the data field fixed. -/
def actRecord (act : EngineAction) (a : Nat) : List Byte :=
  wordRecord .word (fieldsNumber 0x0000 a .action act.code.toNat)

/-- A record of a facade row on an entity. -/
def facadeRecord (row : Byte) (e : Nat) (rest : List Byte) : List Byte :=
  [Format.facade.code, row, BitVec.ofNat 8 (e / 256), BitVec.ofNat 8 e] ++ rest

/-- The record of a well-formed instruction. -/
def encode (i : Instr) : List Byte :=
  match i with
  | .makeWord t a c d =>
    reqRecord ⟨0b000#3, t.code, BitVec.ofNat 8 a, c.code, BitVec.ofNat 8 d, 0#16, 0#8, []⟩
  | .engineActionWord a d =>
    reqRecord ⟨0b001#3, 0#3, BitVec.ofNat 8 a, 0#2, BitVec.ofNat 8 d, 0#16, 0#8, []⟩
  | .engineSpeedWord a v =>
    reqRecord ⟨0b010#3, 0#3, BitVec.ofNat 8 a, 0#2, BitVec.ofNat 8 v, 0#16, 0#8, []⟩
  | .setSink => reqRecord (Request.zero 0b011#3)
  | .sendFrame w => reqRecord ⟨0b100#3, 0#3, 0#8, 0#2, 0#8, w, 0#8, []⟩
  | .sendFrameRepeated w n => reqRecord ⟨0b101#3, 0#3, 0#8, 0#2, 0#8, w, BitVec.ofNat 8 n, []⟩
  | .sendRawBytes raw => reqRecord ⟨0b110#3, 0#3, 0#8, 0#2, 0#8, 0#16, 0#8, raw⟩
  | .systemHalt => reqRecord (Request.zero 0b111#3)
  | .makeWordEngine a c d => wordRecord .make (fieldsNumber 0x0000 a c d)
  | .makeWordSwitch a c d => wordRecord .make (fieldsNumber 0x4000 a c d)
  | .makeWordAccessory a c d => wordRecord .make (fieldsNumber 0x8000 a c d)
  | .makeWordTrain a c d => wordRecord .make (fieldsNumber 0xC800 a c d)
  | .makeWordRoute a c d => wordRecord .make (fieldsNumber 0xD000 a c d)
  | .engineActionWordWord a d => wordRecord .engine (fieldsNumber 0x0000 a .action d)
  | .engineSpeedWordWord a v => wordRecord .engine (fieldsNumber 0x0000 a .absoluteSpeed v)
  | .haltWord => wordRecord .word 0xFFFF
  | .frame h l => [Format.frame.code, 0xFE#8, h, l]
  | .classAction t a d => classRecord .action t a d
  | .classExtended t a d => classRecord .extended t a d
  | .classRelativeSpeed t a d => classRecord .relativeSpeed t a d
  | .classAbsoluteSpeed t a d => classRecord .absoluteSpeed t a d
  | .typeEngine a c d => typeRecord .engine a c d
  | .typeSwitch a c d => typeRecord .switch a c d
  | .typeAccessory a c d => typeRecord .accessory a c d
  | .typeTrain a c d => typeRecord .train a c d
  | .typeRoute a c d => typeRecord .route a c d
  | .actForward a => actRecord .forward a
  | .actToggleDirection a => actRecord .toggleDirection a
  | .actReverse a => actRecord .reverse a
  | .actBoost a => actRecord .boost a
  | .actFrontCoupler a => actRecord .frontCoupler a
  | .actRearCoupler a => actRecord .rearCoupler a
  | .actBrake a => actRecord .brake a
  | .actAux1Off a => actRecord .aux1Off a
  | .actAux1Option1 a => actRecord .aux1Option1 a
  | .actAux1Option2 a => actRecord .aux1Option2 a
  | .actAux1On a => actRecord .aux1On a
  | .actAux2Off a => actRecord .aux2Off a
  | .actAux2Option1 a => actRecord .aux2Option1 a
  | .actAux2Option2 a => actRecord .aux2Option2 a
  | .actAux2On a => actRecord .aux2On a
  | .actHorn1 a => actRecord .horn1 a
  | .actBell a => actRecord .bell a
  | .actLetOff a => actRecord .letOff a
  | .actHorn2 a => actRecord .horn2 a
  | .facadeSetSpeed e v => facadeRecord 0#8 e [BitVec.ofNat 8 v]
  | .facadeSetDirectionForward e => facadeRecord 1#8 e []
  | .facadeSetDirectionReverse e => facadeRecord 2#8 e []
  | .facadeOpenFrontCoupler e => facadeRecord 3#8 e []
  | .facadeOpenRearCoupler e => facadeRecord 4#8 e []
  | .facadeBoost e => facadeRecord 5#8 e []
  | .facadeBrake e => facadeRecord 6#8 e []
  | .facadeBlowHorn e => facadeRecord 7#8 e []
  | .facadeRingBell e => facadeRecord 8#8 e []
  | .facadeAttachSink => [Format.facade.code, 9#8]
  | .facadeSystemHalt => [Format.facade.code, 10#8]
  | .facadeRawBurst raw => [Format.facade.code, 11#8] ++ raw

/-! ### The host's word interface -/

/-- The record of a table word of `nbits` bits: a request op code (up to 8 bits, every operand field zero, `req_raw` the
one byte zero), a command word (up to 16) or a frame (up to 24, its first byte the most significant, as the table
writes it) (log 3). -/
def tableRecord (nbits w : Nat) : List Byte :=
  if 2 ^ nbits ≤ w then []
  else if nbits ≤ 8 then Format.req.code :: BitVec.ofNat 8 w :: List.replicate 8 0#8
  else if nbits ≤ 16 then wordRecord .word w
  else if nbits ≤ 24 then
    [Format.frame.code, BitVec.ofNat 8 (w / 65536), BitVec.ofNat 8 (w / 256), BitVec.ofNat 8 w]
  else []

/-- The instruction the decoder reads from a table word. -/
def decodeTableWord (nbits w : Nat) : Option Instr :=
  match decode (tableRecord nbits w) with
  | .ok i => some i
  | .error _ => none

end Sys2Proof
end

