-- ==== Sys2Proof/Machine/State.lean ====
section
/-! DEFINITION. State: everything the spec gives the machine, as plain data; the reasons a step can stop; reset. -/

namespace Sys2Proof.Machine

/-- The status an operation reports with its response (R25, R271). -/
inductive Status where
  | ok | unavailable
deriving DecidableEq, Repr

/-- The diagnostics; NO_SINK is the only one (R271). -/
inductive Diagnostic where
  | noSink
deriving DecidableEq, Repr

/-- A response (R99): the status, and the word of a codec operation (absent where `rsp_word` is not meaningful). -/
structure Response where
  status : Status
  word   : Option Word
deriving DecidableEq, Repr

/-- An event of the sink event trace (R12, R52, R53). -/
inductive SinkEvent where
  | write (bytes : List Byte)
  | flush
deriving DecidableEq, Repr

/-- An Engine entity of the caller (R30). `none` is the spec's own "holds no value": a field no setter has written
(R37, R224, U11, U19). -/
structure Engine where
  address      : Option (BitVec 7)
  maxSpeed     : Option (BitVec 5)
  currentSpeed : Option (BitVec 5)
  direction    : Option Direction
deriving DecidableEq, Repr

/-- A caller-side call that has a rule and no row in the opcode table (R103). -/
inductive Call where
  /-- Create an entity whose fields hold no value (R35, R224); its index is the number of entities before it. -/
  | createEngine
  /-- `set_address` (R226). -/
  | setAddress (engine : Nat) (address : Nat)
  /-- `set_max_speed` (R227). -/
  | setMaxSpeed (engine : Nat) (speed : Nat)
  /-- `get_current_speed` (R229). -/
  | getCurrentSpeed (engine : Nat)
  /-- `test_pattern` (R241). -/
  | testPattern
deriving DecidableEq, Repr

/-- What the outside world presents next (log 4). -/
inductive Input where
  /-- A record, performed whole in one step: the transaction level (R59). -/
  | record (bytes : List Byte)
  /-- A request on the byte-level request port (R204): accepted in one step, a burst emitted in the steps after it. -/
  | serial (request : Request)
  /-- A caller-side call without a row. -/
  | call (c : Call)
  /-- Two requests at once (R308). -/
  | together (first second : Request)
  /-- The reset input (R300), asserted as soon as it is next, in a burst too, where it has no meaning (R301). When it
  arrives is the outside world's to say; that a place in the queue says it is the model's choice (log 30). -/
  | reset
  /-- Nothing more is presented until the phase is IDLE: `untilIdle` before `reset` is a reset after the burst
  (log 30). -/
  | untilIdle
deriving DecidableEq, Repr

/-- The machine. -/
structure State where
  /-- `sink_en`, the whole architectural state of the block (R20, R22). -/
  sinkEn : Bool
  /-- `busy`: a burst is being emitted (R24, R191). -/
  busy : Bool
  /-- `raw`: the burst in progress is a raw burst (R24, R191). -/
  raw : Bool
  /-- `word_reg`: the word being framed (R24). -/
  wordReg : Word
  /-- `rep_cnt`: frames still to be completed, the repetition counter (R24). -/
  repCnt : BitVec 5
  /-- `byte_idx`: which byte of the frame is next (R24). -/
  byteIdx : BitVec 2
  /-- `raw_idx`: index of the next raw byte, wide enough for any `RAW_MAX` (R24). -/
  rawIdx : Nat
  /-- `req_raw` as the caller holds it from the accept of a raw request to its response (R198, R310). -/
  reqRaw : List Byte
  /-- The bytes transferred since the last `snk_last`: the write in the making (R192). -/
  burst : List Byte
  /-- The sink event trace (R12, R26). -/
  sinkTrace : List SinkEvent
  /-- The diagnostic trace (R12, R26). -/
  diagTrace : List Diagnostic
  /-- The responses given, in order: the words and statuses of R12. -/
  responses : List Response
  /-- The results `get_current_speed` returned, in order (R229). -/
  speedResults : List (BitVec 5)
  /-- The caller's Engine entities (R30, R35). -/
  engines : List Engine
  /-- What the caller presents, next first (log 4). -/
  pending : List Input
  /-- `snk_ready` in the coming emit steps, next first (R192, R203; log 11). -/
  sinkReady : List Bool
  /-- `snk_ready` in every emit step after those: 0 is a sink that is never ready again (R203, U20; log 11). -/
  sinkTail : Bool
deriving DecidableEq, Repr

/-- A fault. There is none: "Fault: none arises in the block" (R288). Safe: nothing is raised. -/
inductive Fault where
deriving DecidableEq, Repr

/-- The Engine fields an action may need (R224). -/
inductive EngineField where
  | address | maxSpeed | currentSpeed
deriving DecidableEq, Repr

/-- Why a request has no meaning (R281). -/
inductive Refusal where
  /-- An instruction without a meaning: raised by no arm of exec. Safe. -/
  | notModelled (mnemonic : String)
  /-- A record the decoder reads no instruction from (reserved `req_type`, R98; raw length, R156; a malformed record):
  raised by step. Safe: the machine stops. -/
  | undecodable (reason : DecodeError)
  /-- An empty raw list, or one longer than `RAW_MAX`: raised by SEND_RAW_BYTES and FACADE.raw_burst (R156, R281).
  Safe. -/
  | rawLength (length : Nat)
  /-- A facade action that needs an Engine field no setter has written: raised by the facade (R224, R281). Safe. -/
  | engineFieldUnset (field : EngineField)
  /-- A facade action on an entity the caller has not created: raised by the facade (R224; log 12). Safe. -/
  | noSuchEngine (engine : Nat)
  /-- `set_max_speed` below the stored `current_speed`: raised by that call (R227, U7). Safe. -/
  | maxSpeedBelowCurrent
  /-- Reset while a burst is in progress: raised by step (R301, U9). Safe. -/
  | resetDuringBurst
  /-- Two requests at once: raised by step (R308, U10). Safe. -/
  | twoRequestsAtOnce
deriving DecidableEq, Repr

/-- What every meaning and every step answers. -/
abbrev Outcome := Host.Outcome State Fault Refusal

/-- The machine right after reset (R37, R300): no sink, phase IDLE, both traces empty, no Engine entity, nothing
presented. `word_reg` is unspecified (log 8). -/
def State.reset : State where
  sinkEn := false
  busy := false
  raw := false
  wordReg := Config.wordRegReset
  repCnt := 0#5
  byteIdx := 0#2
  rawIdx := 0
  reqRaw := []
  burst := []
  sinkTrace := []
  diagTrace := []
  responses := []
  speedResults := []
  engines := []
  pending := []
  sinkReady := []
  sinkTail := true

end Sys2Proof.Machine
end

