-- ==== Sys2Proof/Machine/Flags.lean ====
section
/-! DEFINITION. The block has no condition codes and no sticky flag (R25). What takes their place is the status an
operation reports, and the codes of status and diagnostic (R271). -/

namespace Sys2Proof.Machine

/-- The status of a transmit operation: UNAVAILABLE exactly when no sink is attached (R25). -/
def transmitStatus (sinkEn : Bool) : Status := if sinkEn then .ok else .unavailable

/-- `rsp_status[0]` (R99, R271). -/
def Status.code : Status → BitVec 1
  | .ok => 0#1
  | .unavailable => 1#1

/-- Diagnostic codes (R271). -/
def Diagnostic.code : Diagnostic → Nat
  | .noSink => 1

end Sys2Proof.Machine
end

