-- ==== Sys2Proof/Machine/Operands.lean ====
section
/-! DEFINITION. The literals of R7, the operand operations mask and clamp (R10), the word encoder (R120, R131), the two
bytes of a word (R9) and the bursts built of them (R92, R93). -/

namespace Sys2Proof.Machine

/-- `HEADER` (R7). -/
def header : Byte := 0xFE#8

/-- `SPEED_MAX` (R7). -/
def speedMax : Nat := 31

/-- `REP_MIN` (R7). -/
def repMin : Nat := 1

/-- `REP_MAX` (R7). -/
def repMax : Nat := 30

/-- `HALT_WORD` (R7). -/
def haltWord : Word := 0xFFFF#16

/-- `HALT_REPS`, a literal of its own (R7, R155). -/
def haltReps : Nat := 10

/-- `HORN_BELL_REPS` (R7, R222). -/
def hornBellReps : Nat := 30

/-- `TEST_PATTERN` (R7, R241). -/
def testPatternBytes : List Byte := [0x55#8, 0xAA#8, 0x00#8, 0xFF#8, 0x55#8, 0xAA#8]

/-- `RAW_FLUSH`: a flush request follows the raw write; taken as 1 (R8, R156, D11; log 13). -/
def rawFlush : Bool := true

/-- `mask_n(v)`, the low `n` bits (R10). -/
def mask (n v : Nat) : BitVec n := BitVec.ofNat n v

/-- `clamp(v, lo, hi)` (R10). -/
def clamp (v lo hi : Nat) : Nat := if v < lo then lo else if hi < v then hi else v

/-- MAKE_WORD: prefix, masked address, class and masked data, side by side (R120 to R126). -/
def makeWord (t : ObjectType) (address : Nat) (c : CmdClass) (data : Nat) : Word :=
  match t with
  | .engine => 0b00#2 ++ mask 7 address ++ c.code ++ mask 5 data
  | .switch => 0b01#2 ++ mask 7 address ++ c.code ++ mask 5 data
  | .accessory => 0b10#2 ++ mask 7 address ++ c.code ++ mask 5 data
  | .train => 0b11001#5 ++ mask 4 address ++ c.code ++ mask 5 data
  | .route => 0b1101#4 ++ mask 5 address ++ c.code ++ mask 5 data

/-- The word of `engine_action_word` (R130). -/
def actionWord (address action : Nat) : Word := makeWord .engine address .action action

/-- The word of `engine_speed_word`: the speed is clamped, not masked (R89, R131). -/
def speedWord (address speed : Nat) : Word :=
  makeWord .engine address .absoluteSpeed (clamp speed 0 speedMax)

/-- `word[15:8]` (R9). -/
def highByte (w : Word) : Byte := w.extractLsb' 8 8

/-- `word[7:0]` (R9). -/
def lowByte (w : Word) : Byte := w.extractLsb' 0 8

/-- The frame of a word (R92). -/
def frameBytes (w : Word) : List Byte := [header, highByte w, lowByte w]

/-- `rep(L, n)` (R10). -/
def rep (bytes : List Byte) (n : Nat) : List Byte := (List.replicate n bytes).flatten

/-- The repetition count of a request (R89, R154). -/
def repetitions (n : Nat) : Nat := clamp n repMin repMax

/-- The burst of a framed operation (R93). -/
def burstBytes (w : Word) (n : Nat) : List Byte := rep (frameBytes w) n

end Sys2Proof.Machine
end

