-- ==== Sys2Proof/Machine/Ops.lean ====
section
/-! DEFINITION. The primitives of R11, the configuration error (the block's only error; there is no trap entry and no
return, R276, R277), the shape every transmit operation has (R150), and access to the caller's entities. -/

namespace Sys2Proof.Machine

/-- `SinkWrite(L)` (R52). -/
def State.sinkWrite (bytes : List Byte) (s : State) : State :=
  { s with sinkTrace := s.sinkTrace ++ [.write bytes] }

/-- `SinkFlush()` (R53). -/
def State.sinkFlush (s : State) : State := { s with sinkTrace := s.sinkTrace ++ [.flush] }

/-- `Diag(code)` (R274). -/
def State.diagnose (d : Diagnostic) (s : State) : State := { s with diagTrace := s.diagTrace ++ [d] }

/-- The response of an operation: `status <- …`, `result <- …` (R11, R99). -/
def State.respond (status : Status) (word : Option Word) (s : State) : State :=
  { s with responses := s.responses ++ [⟨status, word⟩] }

/-- The response of a codec operation: its word, always OK (R25, R132). -/
def State.respondWord (w : Word) (s : State) : State := s.respond .ok (some w)

/-- The configuration error: one diagnostic, status UNAVAILABLE, nothing else (R272, R276). -/
def State.configurationError (s : State) : State :=
  (s.diagnose .noSink).respond (transmitStatus false) none

/-- Every transmit operation (R150): the sink test, then one write of the whole list, the flush, the status (R160). -/
def State.transmit (bytes : List Byte) (flush : Bool) (s : State) : State :=
  if s.sinkEn then
    let written := s.sinkWrite bytes
    (if flush then written.sinkFlush else written).respond (transmitStatus true) none
  else s.configurationError

/-- `send_frame(word)` (R152). -/
def State.sendFrame (w : Word) (s : State) : State := s.transmit (frameBytes w) true

/-- `send_frame_repeated(word, repetitions)` (R154). -/
def State.sendFrames (w : Word) (n : Nat) (s : State) : State :=
  s.transmit (burstBytes w (repetitions n)) true

/-- `send_raw_bytes(data)` (R156). -/
def State.sendRaw (bytes : List Byte) (s : State) : State := s.transmit bytes rawFlush

/-- `system_halt()` (R155). -/
def State.halt (s : State) : State := s.transmit (burstBytes haltWord haltReps) true

/-- `set_sink` (R151). -/
def State.attachSink (s : State) : State := ({ s with sinkEn := true } : State).respond .ok none

/-- Replace an entity. -/
def State.putEngine (e : Nat) (E : Engine) (s : State) : State := { s with engines := s.engines.set e E }

/-- What is done with an entity that exists; one that does not is refused (R224; log 12). -/
def State.withEngine (e : Nat) (s : State) (k : Engine → Outcome) : Outcome :=
  match s.engines[e]? with
  | some E => k E
  | none => .refused (.noSuchEngine e)

/-- What is done with a field's value; a field no setter has written is refused (R224, R281). -/
def withField {α : Type} (field : EngineField) (value : Option α) (k : α → Outcome) : Outcome :=
  match value with
  | some v => k v
  | none => .refused (.engineFieldUnset field)

/-- The byte stream the block has produced (R58). -/
def wireStream : List SinkEvent → List Byte
  | [] => []
  | .write bytes :: rest => bytes ++ wireStream rest
  | .flush :: rest => wireStream rest

/-- The bytes the trace allows one to call "handed to the hardware": those before its last flush (R27, R60).
`waiting` are the bytes since the flush before. -/
def handedFrom (waiting : List Byte) : List SinkEvent → List Byte
  | [] => []
  | .write bytes :: rest => handedFrom (waiting ++ bytes) rest
  | .flush :: rest => waiting ++ handedFrom [] rest

/-- The bytes handed to the hardware (R27, R60). -/
def handedStream (trace : List SinkEvent) : List Byte := handedFrom [] trace

end Sys2Proof.Machine
end

