-- ==== Sys2Proof/Machine/Codec.lean ====
section
/-! DEFINITION. The codec operations and the rows that are forms of them: they read and write no state but the response
(R132). -/

namespace Sys2Proof.Machine

/-- `MAKE_WORD` (R120). -/
def execMakeWord (t : ObjectType) (a : Nat) (c : CmdClass) (d : Nat) (s : State) : Outcome :=
  .next (s.respondWord (makeWord t a c d))

/-- `ENGINE_ACTION_WORD` (R130). -/
def execEngineActionWord (a d : Nat) (s : State) : Outcome := .next (s.respondWord (actionWord a d))

/-- `ENGINE_SPEED_WORD` (R131). -/
def execEngineSpeedWord (a v : Nat) (s : State) : Outcome := .next (s.respondWord (speedWord a v))

/-- `ENGINE_ACTION_WORD.WORD` (R130). -/
def execEngineActionWordWord (a d : Nat) (s : State) : Outcome := .next (s.respondWord (actionWord a d))

/-- `ENGINE_SPEED_WORD.WORD` (R131). -/
def execEngineSpeedWordWord (a v : Nat) (s : State) : Outcome := .next (s.respondWord (speedWord a v))

/-! ### The object-type forms of MAKE_WORD -/

/-- `MAKE_WORD.ENGINE` (R122). -/
def execMakeWordEngine (a : Nat) (c : CmdClass) (d : Nat) (s : State) : Outcome :=
  .next (s.respondWord (makeWord .engine a c d))

/-- `MAKE_WORD.SWITCH` (R123). -/
def execMakeWordSwitch (a : Nat) (c : CmdClass) (d : Nat) (s : State) : Outcome :=
  .next (s.respondWord (makeWord .switch a c d))

/-- `MAKE_WORD.ACCESSORY` (R124). -/
def execMakeWordAccessory (a : Nat) (c : CmdClass) (d : Nat) (s : State) : Outcome :=
  .next (s.respondWord (makeWord .accessory a c d))

/-- `MAKE_WORD.TRAIN` (R125). -/
def execMakeWordTrain (a : Nat) (c : CmdClass) (d : Nat) (s : State) : Outcome :=
  .next (s.respondWord (makeWord .train a c d))

/-- `MAKE_WORD.ROUTE` (R126). -/
def execMakeWordRoute (a : Nat) (c : CmdClass) (d : Nat) (s : State) : Outcome :=
  .next (s.respondWord (makeWord .route a c d))

/-! ### MAKE_WORD with a class code (R86; log 2) -/

/-- `CLASS.ACTION` (R86). -/
def execClassAction (t : ObjectType) (a d : Nat) (s : State) : Outcome :=
  .next (s.respondWord (makeWord t a .action d))

/-- `CLASS.EXTENDED` (R86). -/
def execClassExtended (t : ObjectType) (a d : Nat) (s : State) : Outcome :=
  .next (s.respondWord (makeWord t a .extended d))

/-- `CLASS.RELATIVE_SPEED` (R86). -/
def execClassRelativeSpeed (t : ObjectType) (a d : Nat) (s : State) : Outcome :=
  .next (s.respondWord (makeWord t a .relativeSpeed d))

/-- `CLASS.ABSOLUTE_SPEED` (R86). -/
def execClassAbsoluteSpeed (t : ObjectType) (a d : Nat) (s : State) : Outcome :=
  .next (s.respondWord (makeWord t a .absoluteSpeed d))

/-! ### MAKE_WORD with a type code (R98; log 2) -/

/-- `TYPE.ENGINE` (R98). -/
def execTypeEngine (a : Nat) (c : CmdClass) (d : Nat) (s : State) : Outcome :=
  .next (s.respondWord (makeWord .engine a c d))

/-- `TYPE.SWITCH` (R98). -/
def execTypeSwitch (a : Nat) (c : CmdClass) (d : Nat) (s : State) : Outcome :=
  .next (s.respondWord (makeWord .switch a c d))

/-- `TYPE.ACCESSORY` (R98). -/
def execTypeAccessory (a : Nat) (c : CmdClass) (d : Nat) (s : State) : Outcome :=
  .next (s.respondWord (makeWord .accessory a c d))

/-- `TYPE.TRAIN` (R98). -/
def execTypeTrain (a : Nat) (c : CmdClass) (d : Nat) (s : State) : Outcome :=
  .next (s.respondWord (makeWord .train a c d))

/-- `TYPE.ROUTE` (R98). -/
def execTypeRoute (a : Nat) (c : CmdClass) (d : Nat) (s : State) : Outcome :=
  .next (s.respondWord (makeWord .route a c d))

/-! ### The Engine action words of the named codes (R221) -/

/-- The Engine action word of a named code (R130, R221). -/
def State.respondAction (act : EngineAction) (a : Nat) (s : State) : State :=
  s.respondWord (actionWord a act.code.toNat)

/-- `ACT.FORWARD` (R221). -/
def execActForward (a : Nat) (s : State) : Outcome := .next (s.respondAction .forward a)

/-- `ACT.TOGGLE_DIRECTION` (R221). -/
def execActToggleDirection (a : Nat) (s : State) : Outcome := .next (s.respondAction .toggleDirection a)

/-- `ACT.REVERSE` (R221). -/
def execActReverse (a : Nat) (s : State) : Outcome := .next (s.respondAction .reverse a)

/-- `ACT.BOOST` (R221). -/
def execActBoost (a : Nat) (s : State) : Outcome := .next (s.respondAction .boost a)

/-- `ACT.FRONT_COUPLER` (R221). -/
def execActFrontCoupler (a : Nat) (s : State) : Outcome := .next (s.respondAction .frontCoupler a)

/-- `ACT.REAR_COUPLER` (R221). -/
def execActRearCoupler (a : Nat) (s : State) : Outcome := .next (s.respondAction .rearCoupler a)

/-- `ACT.BRAKE` (R221). -/
def execActBrake (a : Nat) (s : State) : Outcome := .next (s.respondAction .brake a)

/-- `ACT.AUX1_OFF` (R221). -/
def execActAux1Off (a : Nat) (s : State) : Outcome := .next (s.respondAction .aux1Off a)

/-- `ACT.AUX1_OPTION1` (R221). -/
def execActAux1Option1 (a : Nat) (s : State) : Outcome := .next (s.respondAction .aux1Option1 a)

/-- `ACT.AUX1_OPTION2` (R221). -/
def execActAux1Option2 (a : Nat) (s : State) : Outcome := .next (s.respondAction .aux1Option2 a)

/-- `ACT.AUX1_ON` (R221). -/
def execActAux1On (a : Nat) (s : State) : Outcome := .next (s.respondAction .aux1On a)

/-- `ACT.AUX2_OFF` (R221). -/
def execActAux2Off (a : Nat) (s : State) : Outcome := .next (s.respondAction .aux2Off a)

/-- `ACT.AUX2_OPTION1` (R221). -/
def execActAux2Option1 (a : Nat) (s : State) : Outcome := .next (s.respondAction .aux2Option1 a)

/-- `ACT.AUX2_OPTION2` (R221). -/
def execActAux2Option2 (a : Nat) (s : State) : Outcome := .next (s.respondAction .aux2Option2 a)

/-- `ACT.AUX2_ON` (R221). -/
def execActAux2On (a : Nat) (s : State) : Outcome := .next (s.respondAction .aux2On a)

/-- `ACT.HORN1` (R221). -/
def execActHorn1 (a : Nat) (s : State) : Outcome := .next (s.respondAction .horn1 a)

/-- `ACT.BELL` (R221). -/
def execActBell (a : Nat) (s : State) : Outcome := .next (s.respondAction .bell a)

/-- `ACT.LET_OFF` (R221). -/
def execActLetOff (a : Nat) (s : State) : Outcome := .next (s.respondAction .letOff a)

/-- `ACT.HORN2` (R221). -/
def execActHorn2 (a : Nat) (s : State) : Outcome := .next (s.respondAction .horn2 a)

end Sys2Proof.Machine
end

