-- ==== Sys2Proof/Machine/Transmit.lean ====
section
/-! DEFINITION. SET_SINK and the transmit operations at the transaction level (R150 to R156), with the rows that are
forms of them. -/

namespace Sys2Proof.Machine

/-- A raw list of 1 to `RAW_MAX` bytes is sent; any other has no meaning, with or without a sink (R156, R281). -/
def State.rawBurst (bytes : List Byte) (s : State) : Outcome :=
  if rawLengthOk bytes.length then .next (s.sendRaw bytes) else .refused (.rawLength bytes.length)

/-- `SET_SINK`; a second one has no effect (R151, D7). -/
def execSetSink (s : State) : Outcome := .next s.attachSink

/-- `SEND_FRAME` (R152); the word is not checked (R91). -/
def execSendFrame (w : Word) (s : State) : Outcome := .next (s.sendFrame w)

/-- `SEND_FRAME_REPEATED` (R154). -/
def execSendFrameRepeated (w : Word) (n : Nat) (s : State) : Outcome := .next (s.sendFrames w n)

/-- `SEND_RAW_BYTES` (R156). -/
def execSendRawBytes (bytes : List Byte) (s : State) : Outcome := s.rawBurst bytes

/-- `SYSTEM_HALT` (R155). -/
def execSystemHalt (s : State) : Outcome := .next s.halt

/-- `HALT_WORD`: the word SYSTEM_HALT frames ten times, sent so (R155; log 2). -/
def execHaltWord (s : State) : Outcome := .next s.halt

/-- `FRAME`: the frame of the word these two bytes make, sent as SEND_FRAME sends it (R92, R152; log 2). -/
def execFrame (high low : Byte) (s : State) : Outcome := .next (s.sendFrame (high ++ low))

end Sys2Proof.Machine
end

