-- ==== Sys2Proof/Machine/Facade.lean ====
section
/-! DEFINITION. The caller's Engine Facade (43_vocabulary_facade.md): the rows FACADE.<name>, each the block operations
its rule expands it into, and the calls that have a rule and no row (R103). A facade call returns nothing; the
responses it leaves are those of the block operations it issues (R223). -/

namespace Sys2Proof.Machine

/-- Form the Engine action word of an entity and hand it to a send path (R222, R223). -/
def State.facadeAction (e : Nat) (act : EngineAction) (send : Word → State → State) (s : State) : Outcome :=
  s.withEngine e fun E =>
    withField .address E.address fun a =>
      let w := actionWord a.toNat act.code.toNat
      .next (send w (s.respondWord w))

/-- The single-shot path: one frame (R222). -/
def singleShot (w : Word) (s : State) : State := s.sendFrame w

/-- The repeated path of horn and bell: thirty frames in one burst (R222). -/
def repeatedPath (w : Word) (s : State) : State := s.sendFrames w hornBellReps

/-- A setter's update of its entity, made when the transmit was OK; after UNAVAILABLE it is OPEN whether it is made
(R223, U8; log 7). -/
def State.updateEngine (e : Nat) (E : Engine) (s : State) : State :=
  if s.sinkEn || Config.facadeUpdateOnUnavailable then s.putEngine e E else s

/-- A direction action: the frame on the single-shot path, and the flag (R230, R231). -/
def State.facadeDirection (e : Nat) (dir : Direction) (act : EngineAction) (s : State) : Outcome :=
  s.withEngine e fun E =>
    s.facadeAction e act fun w s1 =>
      (singleShot w s1).updateEngine e { E with direction := some dir }

/-- `FACADE.set_speed` (R228): clamp to the entity's maximum, store, send. -/
def execFacadeSetSpeed (e v : Nat) (s : State) : Outcome :=
  s.withEngine e fun E =>
    withField .maxSpeed E.maxSpeed fun m =>
      withField .address E.address fun a =>
        let speed := clamp v 0 m.toNat
        let w := speedWord a.toNat speed
        .next ((singleShot w (s.respondWord w)).updateEngine e
          { E with currentSpeed := some (BitVec.ofNat 5 speed) })

/-- `FACADE.set_direction_forward` (R230). -/
def execFacadeSetDirectionForward (e : Nat) (s : State) : Outcome := s.facadeDirection e .forward .forward

/-- `FACADE.set_direction_reverse` (R231). -/
def execFacadeSetDirectionReverse (e : Nat) (s : State) : Outcome := s.facadeDirection e .reverse .reverse

/-- `FACADE.open_front_coupler` (R232). -/
def execFacadeOpenFrontCoupler (e : Nat) (s : State) : Outcome := s.facadeAction e .frontCoupler singleShot

/-- `FACADE.open_rear_coupler` (R233). -/
def execFacadeOpenRearCoupler (e : Nat) (s : State) : Outcome := s.facadeAction e .rearCoupler singleShot

/-- `FACADE.boost` (R234). -/
def execFacadeBoost (e : Nat) (s : State) : Outcome := s.facadeAction e .boost singleShot

/-- `FACADE.brake` (R235). -/
def execFacadeBrake (e : Nat) (s : State) : Outcome := s.facadeAction e .brake singleShot

/-- `FACADE.blow_horn` (R236). -/
def execFacadeBlowHorn (e : Nat) (s : State) : Outcome := s.facadeAction e .horn1 repeatedPath

/-- `FACADE.ring_bell` (R237). -/
def execFacadeRingBell (e : Nat) (s : State) : Outcome := s.facadeAction e .bell repeatedPath

/-- `FACADE.attach_sink` (R238). -/
def execFacadeAttachSink (s : State) : Outcome := .next s.attachSink

/-- `FACADE.system_halt` (R239): no Engine entity is touched. -/
def execFacadeSystemHalt (s : State) : Outcome := .next s.halt

/-- `FACADE.raw_burst` (R240). -/
def execFacadeRawBurst (bytes : List Byte) (s : State) : Outcome := s.rawBurst bytes

/-! ### Calls without a row -/

/-- A new entity: no field holds a value (R37, R224). -/
def Engine.new : Engine := ⟨none, none, none, none⟩

/-- Create an entity (R35, R224). -/
def execCreateEngine (s : State) : Outcome := .next { s with engines := s.engines ++ [Engine.new] }

/-- `set_address` (R226): sends nothing. -/
def execSetAddress (e a : Nat) (s : State) : Outcome :=
  s.withEngine e fun E => .next (s.putEngine e { E with address := some (mask 7 a) })

/-- A speed is at most a bound, where it holds a value. -/
def speedWithin (current : Option (BitVec 5)) (bound : Nat) : Bool :=
  match current with
  | some c => decide (c.toNat ≤ bound)
  | none => true

/-- `set_max_speed` (R227): sends nothing; below the stored current speed it has no meaning (U7). -/
def execSetMaxSpeed (e v : Nat) (s : State) : Outcome :=
  s.withEngine e fun E =>
    let bound := clamp v 0 speedMax
    if speedWithin E.currentSpeed bound then
      .next (s.putEngine e { E with maxSpeed := some (BitVec.ofNat 5 bound) })
    else .refused .maxSpeedBelowCurrent

/-- `get_current_speed` (R229): returns the stored value. -/
def execGetCurrentSpeed (e : Nat) (s : State) : Outcome :=
  s.withEngine e fun E =>
    withField .currentSpeed E.currentSpeed fun c =>
      .next { s with speedResults := s.speedResults ++ [c] }

/-- `test_pattern` (R241): the six raw bytes, then the horn command of `TEST_HORN_ADDR` on the horn path (log 6). -/
def execTestPattern (s : State) : Outcome :=
  let w := actionWord Config.testHornAddr EngineAction.horn1.code.toNat
  .next (repeatedPath w ((s.sendRaw testPatternBytes).respondWord w))

/-- A caller-side call without a row. -/
def execCall (c : Call) (s : State) : Outcome :=
  match c with
  | .createEngine => execCreateEngine s
  | .setAddress e a => execSetAddress e a s
  | .setMaxSpeed e v => execSetMaxSpeed e v s
  | .getCurrentSpeed e => execGetCurrentSpeed e s
  | .testPattern => execTestPattern s

end Sys2Proof.Machine
end

