-- ==== Sys2Proof/Machine/Dispatch.lean ====
section
/-! DEFINITION. exec: one arm per constructor of Instr, each one direct call of that instruction's meaning. -/

namespace Sys2Proof.Machine

def exec (i : Instr) (s : State) : Host.Outcome State Fault Refusal :=
  match i with
  | .makeWord t a c d => Sys2Proof.Machine.execMakeWord t a c d s
  | .engineActionWord a d => Sys2Proof.Machine.execEngineActionWord a d s
  | .engineSpeedWord a v => Sys2Proof.Machine.execEngineSpeedWord a v s
  | .setSink => Sys2Proof.Machine.execSetSink s
  | .sendFrame w => Sys2Proof.Machine.execSendFrame w s
  | .sendFrameRepeated w n => Sys2Proof.Machine.execSendFrameRepeated w n s
  | .sendRawBytes d => Sys2Proof.Machine.execSendRawBytes d s
  | .systemHalt => Sys2Proof.Machine.execSystemHalt s
  | .makeWordEngine a c d => Sys2Proof.Machine.execMakeWordEngine a c d s
  | .makeWordSwitch a c d => Sys2Proof.Machine.execMakeWordSwitch a c d s
  | .makeWordAccessory a c d => Sys2Proof.Machine.execMakeWordAccessory a c d s
  | .makeWordTrain a c d => Sys2Proof.Machine.execMakeWordTrain a c d s
  | .makeWordRoute a c d => Sys2Proof.Machine.execMakeWordRoute a c d s
  | .engineActionWordWord a d => Sys2Proof.Machine.execEngineActionWordWord a d s
  | .engineSpeedWordWord a v => Sys2Proof.Machine.execEngineSpeedWordWord a v s
  | .haltWord => Sys2Proof.Machine.execHaltWord s
  | .frame h l => Sys2Proof.Machine.execFrame h l s
  | .classAction t a d => Sys2Proof.Machine.execClassAction t a d s
  | .classExtended t a d => Sys2Proof.Machine.execClassExtended t a d s
  | .classRelativeSpeed t a d => Sys2Proof.Machine.execClassRelativeSpeed t a d s
  | .classAbsoluteSpeed t a d => Sys2Proof.Machine.execClassAbsoluteSpeed t a d s
  | .typeEngine a c d => Sys2Proof.Machine.execTypeEngine a c d s
  | .typeSwitch a c d => Sys2Proof.Machine.execTypeSwitch a c d s
  | .typeAccessory a c d => Sys2Proof.Machine.execTypeAccessory a c d s
  | .typeTrain a c d => Sys2Proof.Machine.execTypeTrain a c d s
  | .typeRoute a c d => Sys2Proof.Machine.execTypeRoute a c d s
  | .actForward a => Sys2Proof.Machine.execActForward a s
  | .actToggleDirection a => Sys2Proof.Machine.execActToggleDirection a s
  | .actReverse a => Sys2Proof.Machine.execActReverse a s
  | .actBoost a => Sys2Proof.Machine.execActBoost a s
  | .actFrontCoupler a => Sys2Proof.Machine.execActFrontCoupler a s
  | .actRearCoupler a => Sys2Proof.Machine.execActRearCoupler a s
  | .actBrake a => Sys2Proof.Machine.execActBrake a s
  | .actAux1Off a => Sys2Proof.Machine.execActAux1Off a s
  | .actAux1Option1 a => Sys2Proof.Machine.execActAux1Option1 a s
  | .actAux1Option2 a => Sys2Proof.Machine.execActAux1Option2 a s
  | .actAux1On a => Sys2Proof.Machine.execActAux1On a s
  | .actAux2Off a => Sys2Proof.Machine.execActAux2Off a s
  | .actAux2Option1 a => Sys2Proof.Machine.execActAux2Option1 a s
  | .actAux2Option2 a => Sys2Proof.Machine.execActAux2Option2 a s
  | .actAux2On a => Sys2Proof.Machine.execActAux2On a s
  | .actHorn1 a => Sys2Proof.Machine.execActHorn1 a s
  | .actBell a => Sys2Proof.Machine.execActBell a s
  | .actLetOff a => Sys2Proof.Machine.execActLetOff a s
  | .actHorn2 a => Sys2Proof.Machine.execActHorn2 a s
  | .facadeSetSpeed e v => Sys2Proof.Machine.execFacadeSetSpeed e v s
  | .facadeSetDirectionForward e => Sys2Proof.Machine.execFacadeSetDirectionForward e s
  | .facadeSetDirectionReverse e => Sys2Proof.Machine.execFacadeSetDirectionReverse e s
  | .facadeOpenFrontCoupler e => Sys2Proof.Machine.execFacadeOpenFrontCoupler e s
  | .facadeOpenRearCoupler e => Sys2Proof.Machine.execFacadeOpenRearCoupler e s
  | .facadeBoost e => Sys2Proof.Machine.execFacadeBoost e s
  | .facadeBrake e => Sys2Proof.Machine.execFacadeBrake e s
  | .facadeBlowHorn e => Sys2Proof.Machine.execFacadeBlowHorn e s
  | .facadeRingBell e => Sys2Proof.Machine.execFacadeRingBell e s
  | .facadeAttachSink => Sys2Proof.Machine.execFacadeAttachSink s
  | .facadeSystemHalt => Sys2Proof.Machine.execFacadeSystemHalt s
  | .facadeRawBurst d => Sys2Proof.Machine.execFacadeRawBurst d s

end Sys2Proof.Machine
end

