-- ==== Sys2Proof/Machine/Sequencer.lean ====
section
/-! DEFINITION. The byte-serial sequencer and the repetition counter (42_framer_sequencer.md): its phases, its sink
port, and its accept, emit and flush steps. -/

namespace Sys2Proof.Machine

/-- Phases, read off the registers (R191). -/
inductive Phase where
  | idle | emit | flush
deriving DecidableEq, Repr

/-- Bytes of the burst remain (R191). -/
def State.bytesRemain (s : State) : Bool :=
  if s.raw then decide (s.rawIdx < s.reqRaw.length) else decide (0 < s.repCnt.toNat)

/-- The phase (R191). -/
def State.phase (s : State) : Phase :=
  if s.busy then (if s.bytesRemain then .emit else .flush) else .idle

/-- The byte multiplexer of a framed burst (R195). -/
def State.framedByte (s : State) : Byte :=
  if s.byteIdx = 0#2 then header
  else if s.byteIdx = 1#2 then highByte s.wordReg
  else if s.byteIdx = 2#2 then lowByte s.wordReg
  else Config.byteAtIndexThree s.wordReg

/-- `snk_byte`: the byte offered (R192, R195, R198); none where nothing is offered. -/
def State.snkByte (s : State) : Option Byte :=
  if s.phase = .emit then (if s.raw then s.reqRaw[s.rawIdx]? else some s.framedByte) else none

/-- `snk_valid` (R192). -/
def State.snkValid (s : State) : Bool := s.phase == .emit

/-- `snk_last` (R194, R198). -/
def State.snkLast (s : State) : Bool :=
  s.snkValid &&
    (if s.raw then decide (s.rawIdx + 1 = s.reqRaw.length)
     else decide (s.byteIdx = 2#2) && decide (s.repCnt = 1#5))

/-- `snk_flush`: the pulse of the FLUSH phase, after a raw burst only if RAW_FLUSH (R192, R196). -/
def State.snkFlush (s : State) : Bool := s.phase == .flush && (!s.raw || rawFlush)

/-- `req_ready`: exactly in phase IDLE (R202, R204). -/
def State.reqReady (s : State) : Bool := s.phase == .idle

/-- `snk_ready` in this step (R192; log 11). -/
def State.snkReady (s : State) : Bool := s.sinkReady.headD s.sinkTail

/-- The accept of a framed burst with its count already clamped (R193). -/
def State.acceptFramed (w : Word) (n : Nat) (s : State) : State :=
  { s with wordReg := w, repCnt := BitVec.ofNat 5 n, byteIdx := 0#2, raw := false, busy := true }

/-- The accept of a raw burst (R198); the caller holds the list (R310). -/
def State.acceptRaw (bytes : List Byte) (s : State) : State :=
  { s with raw := true, rawIdx := 0, reqRaw := bytes, busy := true }

/-- An accept if a sink is attached; without one the refused accept, which changes no register (R197). -/
def State.acceptIfSink (accept : State → State) (s : State) : State :=
  if s.sinkEn then accept s else s.configurationError

/-- A byte is transferred: it joins the burst, and the last one completes the write (R192). -/
def State.transferByte (b : Byte) (last : Bool) (s : State) : State :=
  if last then { (s.sinkWrite (s.burst ++ [b])) with burst := [] } else { s with burst := s.burst ++ [b] }

/-- The registers after a framed byte (R194). -/
def State.advanceFramed (s : State) : State :=
  if s.byteIdx.toNat < 2 then { s with byteIdx := s.byteIdx + 1#2 }
  else { s with byteIdx := 0#2, repCnt := s.repCnt - 1#5 }

/-- The register after a raw byte (R198). -/
def State.advanceRaw (s : State) : State := { s with rawIdx := s.rawIdx + 1 }

/-- The emit step with `snk_ready = 1` (R194, R198). -/
def State.emitByte (s : State) : State :=
  match s.snkByte with
  | some b =>
    let t := s.transferByte b s.snkLast
    if s.raw then t.advanceRaw else t.advanceFramed
  | none => s

/-- The emit step: a stalled sink changes nothing and the same byte stays offered (R194). -/
def State.emitStep (s : State) : State :=
  let t := { s with sinkReady := s.sinkReady.tail }
  if s.snkReady then t.emitByte else t

/-- The flush step (R196). -/
def State.flushStep (s : State) : State :=
  let t := if s.snkFlush then s.sinkFlush else s
  ({ t with busy := false, rawIdx := 0 } : State).respond (transmitStatus true) none

/-- One step of the sequencer; it does nothing in phase IDLE. -/
def State.tick (s : State) : State :=
  match s.phase with
  | .idle => s
  | .emit => s.emitStep
  | .flush => s.flushStep

end Sys2Proof.Machine
end

