-- ==== Sys2Proof/Machine/Port.lean ====
section
/-! DEFINITION. The byte-level request port (R204), and what the machine does with each input (R300, R301, R308). -/

namespace Sys2Proof.Machine

/-- The accept step of a decoded request (R193, R197, R198); the codec operations and SET_SINK are whole in it
(R204). -/
def State.acceptInstr (i : Instr) (s : State) : Outcome :=
  match i with
  | .sendFrame w => .next (s.acceptIfSink (State.acceptFramed w 1))
  | .sendFrameRepeated w n => .next (s.acceptIfSink (State.acceptFramed w (repetitions n)))
  | .systemHalt => .next (s.acceptIfSink (State.acceptFramed haltWord haltReps))
  | .sendRawBytes bytes => .next (s.acceptIfSink (State.acceptRaw bytes))
  | other => exec other s

/-- A request accepted on the port (R204). -/
def State.acceptRequest (r : Request) (s : State) : Outcome :=
  match decodeRequest r with
  | .ok i => s.acceptInstr i
  | .error e => .refused (.undecodable e)

/-- A record performed whole: the transaction level. -/
def State.performRecord (bytes : List Byte) (s : State) : Outcome :=
  match decode bytes with
  | .ok i => exec i s
  | .error e => .refused (.undecodable e)

/-- Reset: the reset state, with what the outside world has yet to present (R300, R302). -/
def State.afterReset (s : State) : State :=
  { State.reset with pending := s.pending, sinkReady := s.sinkReady, sinkTail := s.sinkTail }

/-- In phase IDLE the next input is taken; with none the block is idle (R287). -/
def State.takeInput (s : State) : Outcome :=
  match s.pending with
  | [] => .next s
  | .record bytes :: rest => ({ s with pending := rest } : State).performRecord bytes
  | .serial r :: rest => ({ s with pending := rest } : State).acceptRequest r
  | .call c :: rest => execCall c { s with pending := rest }
  | .together _ _ :: _ => .refused .twoRequestsAtOnce
  | .reset :: rest => .next ({ s with pending := rest } : State).afterReset
  | .untilIdle :: rest => .next { s with pending := rest }

/-- While a burst is in progress no request is taken (R202). Reset then has no meaning (R301), nor have two requests
at once (R308): either is refused when it is the next input, which is where it counts as asserted. The spec does not say
how the outside world times a reset; that it is the place in the queue, and that `untilIdle` holds the inputs after it
back, is the model's choice (DESIGN CHOICE, log 30). -/
def State.whileBusy (s : State) : Outcome :=
  match s.pending with
  | .reset :: _ => .refused .resetDuringBurst
  | .together _ _ :: _ => .refused .twoRequestsAtOnce
  | _ => .next s.tick

/-- Phase IDLE with the sequencer's position as R37 and R199 have it. -/
def State.toIdle (s : State) : State :=
  { s with busy := false, repCnt := 0#5, byteIdx := 0#2, rawIdx := 0, burst := [] }

end Sys2Proof.Machine
end

