-- ==== Sys2Proof/Machine/Step.lean ====
section
/-! DEFINITION. One step of the machine, and where the host stores an instruction for it. -/

namespace Sys2Proof.Machine

/-- One step: the sequencer while a burst is in progress, else the next input (R59, R202). -/
def step (s : State) : Host.Outcome State Fault Refusal :=
  if s.busy then s.whileBusy else s.takeInput

/-- `s` with the record of a table word presented next, the block in phase IDLE so that the very next step takes it
(log 4). -/
def State.withFetchWord (s : State) (nbits w : Nat) : State :=
  { s.toIdle with pending := .record (tableRecord nbits w) :: s.pending }

end Sys2Proof.Machine
end

