-- ==== Sys2Proof/Safety.lean ====
section
/-! DEFINITION. What counts as a safe state and a safe run: the invariant of R199, R52, R60 and R225, runs of several
steps, and the words claims are made in. -/

namespace Sys2Proof.Machine

/-- `k` steps, ending at the first refusal. -/
def run (k : Nat) (s : State) : Outcome :=
  match k with
  | 0 => .next s
  | k + 1 =>
    match step s with
    | .next t => run k t
    | .fault r => .fault r
    | .refused r => .refused r

/-- The measure of R199: bytes of a framed burst still to come. -/
def State.bytesLeft (s : State) : Nat := 3 * s.repCnt.toNat - s.byteIdx.toNat

/-- The trace of whole operations: each one write followed by one flush (R59, R60). -/
def wholeBursts (bursts : List (List Byte)) : List SinkEvent :=
  bursts.flatMap fun bytes => [.write bytes, .flush]

/-- Every burst of a list holds a byte (R52). -/
def NonEmptyBursts (bursts : List (List Byte)) : Prop := ∀ bytes ∈ bursts, bytes ≠ []

/-- An entity's current speed, where it holds a value, is at most its maximum (R33, R225). -/
def Engine.speedOk (E : Engine) : Bool :=
  match E.currentSpeed, E.maxSpeed with
  | none, _ => true
  | some c, some m => decide (c.toNat ≤ m.toNat)
  | some _, none => false

/-- The invariant every step keeps. -/
structure State.Inv (s : State) : Prop where
  /-- `0 <= rep_cnt <= 30` (R199). -/
  repCnt_le : s.repCnt.toNat ≤ 30
  /-- `0 <= byte_idx <= 2` (R199). -/
  byteIdx_le : s.byteIdx.toNat ≤ 2
  /-- `busy = 0` implies the sequencer's position is zero (R199, R37), and no write is half made (R192). -/
  idle : s.busy = false → s.repCnt = 0#5 ∧ s.byteIdx = 0#2 ∧ s.rawIdx = 0 ∧ s.burst = []
  /-- In phase FLUSH of a framed burst `byte_idx = 0` (R199). -/
  framedFlush : s.busy = true → s.raw = false → s.repCnt = 0#5 → s.byteIdx = 0#2
  /-- The bytes a framed burst has transferred are the beginning of whole frames of one word (R192, R199). -/
  framedBurst : s.busy = true → s.raw = false → ∃ n, n ≤ 30 ∧ s.bytesLeft ≤ 3 * n ∧
    s.burst = if s.bytesLeft = 0 then [] else (burstBytes s.wordReg n).take (3 * n - s.bytesLeft)
  /-- A raw burst uses neither counter nor byte index, and its transferred bytes are the beginning of the list the
  caller holds (R198). -/
  rawBurst : s.busy = true → s.raw = true → s.repCnt = 0#5 ∧ s.byteIdx = 0#2 ∧
    rawLengthOk s.reqRaw.length = true ∧ s.rawIdx ≤ s.reqRaw.length ∧
    s.burst = if s.rawIdx = s.reqRaw.length then [] else s.reqRaw.take s.rawIdx
  /-- Without a sink no burst is in progress and no event was ever made (R52). -/
  noSink : s.sinkEn = false → s.busy = false ∧ s.sinkTrace = []
  /-- Outside phase FLUSH the trace is a run of whole operations (R59, R60). -/
  wholeTrace : s.phase ≠ .flush → ∃ bursts, NonEmptyBursts bursts ∧ s.sinkTrace = wholeBursts bursts
  /-- In phase FLUSH one write waits for its flush (R196). -/
  flushTrace : s.phase = .flush → ∃ bursts bytes, NonEmptyBursts bursts ∧ bytes ≠ [] ∧
    s.sinkTrace = wholeBursts bursts ++ [.write bytes]
  /-- Every entity's current speed is within its maximum (R225). -/
  speeds : ∀ E ∈ s.engines, E.speedOk = true

/-- A run of `k` steps is safe when every state it passes is. -/
def SafeRun (k : Nat) (s : State) : Prop := ∀ j ≤ k, ∀ t, run j s = .next t → t.Inv

/-! ### The words claims are made in -/

/-- BASE of R120. -/
def typeBase : ObjectType → Nat
  | .engine => 0x0000
  | .switch => 0x4000
  | .accessory => 0x8000
  | .train => 0xC800
  | .route => 0xD000

/-- ADDR_W of R7 and R29. -/
def typeAddressWidth : ObjectType → Nat
  | .engine | .switch | .accessory => 7
  | .train => 4
  | .route => 5

/-- The class numbers of R120. -/
def classNumber : CmdClass → Nat
  | .action => 0
  | .extended => 1
  | .relativeSpeed => 2
  | .absoluteSpeed => 3

/-- The numeric form of R120: BASE + a * 128 + class * 32 + d, the address and data masked. -/
def wordNumber (t : ObjectType) (address : Nat) (c : CmdClass) (data : Nat) : Nat :=
  typeBase t + address % 2 ^ typeAddressWidth t * 128 + classNumber c * 32 + data % 32

/-- An unassigned word: leading bits `11000` or `111` (R62, R90). -/
def Unassigned (w : Word) : Prop := (0xC000 ≤ w.toNat ∧ w.toNat ≤ 0xC7FF) ∨ 0xE000 ≤ w.toNat

/-- The three bytes `0xFE`, high, low of a word, by division (R92). -/
def frameNumbers (w : Word) : List Byte := [0xFE#8, BitVec.ofNat 8 (w.toNat / 256), BitVec.ofNat 8 (w.toNat % 256)]

/-- The codec operations and their forms: no one of them touches the sink (R132). -/
def isCodec (i : Instr) : Bool :=
  match i with
  | .makeWord .. | .engineActionWord .. | .engineSpeedWord .. => true
  | .makeWordEngine .. | .makeWordSwitch .. | .makeWordAccessory .. | .makeWordTrain .. | .makeWordRoute .. => true
  | .engineActionWordWord .. | .engineSpeedWordWord .. => true
  | .classAction .. | .classExtended .. | .classRelativeSpeed .. | .classAbsoluteSpeed .. => true
  | .typeEngine .. | .typeSwitch .. | .typeAccessory .. | .typeTrain .. | .typeRoute .. => true
  | .actForward .. | .actToggleDirection .. | .actReverse .. | .actBoost .. | .actFrontCoupler .. => true
  | .actRearCoupler .. | .actBrake .. | .actAux1Off .. | .actAux1Option1 .. | .actAux1Option2 .. => true
  | .actAux1On .. | .actAux2Off .. | .actAux2Option1 .. | .actAux2Option2 .. | .actAux2On .. => true
  | .actHorn1 .. | .actBell .. | .actLetOff .. | .actHorn2 .. => true
  | .setSink | .sendFrame .. | .sendFrameRepeated .. | .sendRawBytes .. | .systemHalt => false
  | .haltWord | .frame .. | .facadeSetSpeed .. | .facadeSetDirectionForward .. => false
  | .facadeSetDirectionReverse .. | .facadeOpenFrontCoupler .. | .facadeOpenRearCoupler .. => false
  | .facadeBoost .. | .facadeBrake .. | .facadeBlowHorn .. | .facadeRingBell .. => false
  | .facadeAttachSink | .facadeSystemHalt | .facadeRawBurst .. => false

/-- SET_SINK and the facade call that issues it (R151, R238). -/
def attaches (i : Instr) : Bool := i = .setSink || i = .facadeAttachSink

/-- The raw list of a raw burst (R156, R240). -/
def rawList (i : Instr) : Option (List Byte) :=
  match i with
  | .sendRawBytes bytes | .facadeRawBurst bytes => some bytes
  | _ => none

/-- The Engine entity a facade row acts on. -/
def entity (i : Instr) : Option Nat :=
  match i with
  | .facadeSetSpeed e _ | .facadeSetDirectionForward e | .facadeSetDirectionReverse e => some e
  | .facadeOpenFrontCoupler e | .facadeOpenRearCoupler e | .facadeBoost e | .facadeBrake e => some e
  | .facadeBlowHorn e | .facadeRingBell e => some e
  | _ => none

/-- The rows that issue a transmit operation of the block without an Engine entity (R272). -/
def transmits (i : Instr) : Bool := !isCodec i && !attaches i && (entity i).isNone

/-- The raw list, where there is one, is of 1 to `RAW_MAX` bytes (R156). -/
def rawFits (i : Instr) : Bool :=
  match rawList i with
  | some bytes => rawLengthOk bytes.length
  | none => true

/-- A byte list the sink gets in one write, then the flush, then status OK (R150, R160): the state after. -/
def State.sent (bytes : List Byte) (s : State) : State :=
  { s with
    sinkTrace := s.sinkTrace ++ [.write bytes, .flush]
    responses := s.responses ++ [⟨.ok, none⟩] }

/-- No sink: one diagnostic, status UNAVAILABLE, nothing else (R272): the state after. -/
def State.unsent (s : State) : State :=
  { s with
    diagTrace := s.diagTrace ++ [.noSink]
    responses := s.responses ++ [⟨.unavailable, none⟩] }

/-- A codec response, nothing else (R132): the state after. -/
def State.answered (w : Word) (s : State) : State :=
  { s with responses := s.responses ++ [⟨.ok, some w⟩] }

/-- `snk_ready` in the emit step `k` steps on (R192). -/
def State.readyAt (s : State) (k : Nat) : Bool := s.sinkReady.getD k s.sinkTail

/-- The sink is ready infinitely often: the fairness premise of R201 and R203. -/
def State.SinkFair (s : State) : Prop := ∀ n, ∃ k, n ≤ k ∧ s.readyAt k = true

/-- The sink is never ready again: the stuck case of R288 and U20. -/
def State.SinkStuck (s : State) : Prop := ∀ k, s.readyAt k = false

/-- The next input is neither reset nor two requests at once. -/
def State.undisturbed (s : State) : Bool :=
  match s.pending with
  | .reset :: _ | .together _ _ :: _ => false
  | _ => true

/-- The three traces and the responses of `s` are beginnings of those of `t` (R26). -/
def State.Extends (t s : State) : Prop :=
  s.sinkTrace <+: t.sinkTrace ∧ s.diagTrace <+: t.diagTrace ∧ s.responses <+: t.responses

end Sys2Proof.Machine
end

