-- ==== Sys2Proof/WellFormed.lean ====
section
/-! DEFINITION. Which instructions a record can hold: each operand within the bits its port or field gives it (R81 to
R83, R97), a raw list of 1 to `RAW_MAX` bytes (R156), an entity index within the two bytes of a record (log 1). The
meanings are total on every operand; an ill-formed term is only one that no record holds. -/

namespace Sys2Proof

/-- Fits an 8-bit operand port (R97). -/
def fitsPort (v : Nat) : Bool := decide (v < 256)

/-- Fits an address field of `w` bits and the 5-bit data field of a word (R81 to R83). -/
def fitsWord (w a d : Nat) : Bool := decide (a < 2 ^ w) && decide (d < 32)

/-- Fits the entity index of a record (log 1). -/
def fitsIndex (e : Nat) : Bool := decide (e < 65536)

/-- Well-formed instructions. -/
def Instr.wf (i : Instr) : Bool :=
  match i with
  | .makeWord _ a _ d | .engineActionWord a d | .engineSpeedWord a d => fitsPort a && fitsPort d
  | .setSink | .sendFrame _ | .systemHalt | .haltWord | .frame _ _ => true
  | .sendFrameRepeated _ n => fitsPort n
  | .sendRawBytes raw | .facadeRawBurst raw => rawLengthOk raw.length
  | .makeWordEngine a _ d | .makeWordSwitch a _ d | .makeWordAccessory a _ d => fitsWord 7 a d
  | .makeWordTrain a _ d => fitsWord 4 a d
  | .makeWordRoute a _ d => fitsWord 5 a d
  | .engineActionWordWord a d | .engineSpeedWordWord a d => fitsWord 7 a d
  | .classAction _ a d | .classExtended _ a d | .classRelativeSpeed _ a d | .classAbsoluteSpeed _ a d =>
    fitsPort a && fitsPort d
  | .typeEngine a _ d | .typeSwitch a _ d | .typeAccessory a _ d | .typeTrain a _ d | .typeRoute a _ d =>
    fitsPort a && fitsPort d
  | .actForward a | .actToggleDirection a | .actReverse a | .actBoost a | .actFrontCoupler a
  | .actRearCoupler a | .actBrake a | .actAux1Off a | .actAux1Option1 a | .actAux1Option2 a | .actAux1On a
  | .actAux2Off a | .actAux2Option1 a | .actAux2Option2 a | .actAux2On a | .actHorn1 a | .actBell a
  | .actLetOff a | .actHorn2 a => fitsWord 7 a 0
  | .facadeSetSpeed e v => fitsIndex e && fitsPort v
  | .facadeSetDirectionForward e | .facadeSetDirectionReverse e | .facadeOpenFrontCoupler e
  | .facadeOpenRearCoupler e | .facadeBoost e | .facadeBrake e | .facadeBlowHorn e
  | .facadeRingBell e => fitsIndex e
  | .facadeAttachSink | .facadeSystemHalt => true

end Sys2Proof
end

