-- ==== Sys2Proof/Certificates/Slice0/Obligations.lean ====
section
/-! DEFINITION. The statements for the provers. Each docstring names the rule of spec/ it formalises. -/

open Sys2Proof Sys2Proof.Machine

/-! ### Reset, steps and decoding -/

/-- R300, R37: the reset state, and the reset input in phase IDLE. `word_reg` is free: nothing is said of it (log 8).
That reset clears the responses, the returned speeds and the entities and keeps what is still to be presented and the
sink's readiness is the model's choice (log 22, log 12). -/
def Obligations.ResetGivesIdleBlockWithoutSink : Prop :=
  ∀ s rest, s.busy = false → s.pending = .reset :: rest →
    ∃ t w, step s = .next t ∧
      t = { State.reset with wordReg := w, pending := rest, sinkReady := s.sinkReady, sinkTail := s.sinkTail } ∧
      t.sinkEn = false ∧ t.busy = false ∧ t.raw = false ∧ t.repCnt = 0#5 ∧ t.byteIdx = 0#2 ∧ t.rawIdx = 0 ∧
      t.sinkTrace = [] ∧ t.diagTrace = [] ∧ t.engines = [] ∧ t.phase = .idle ∧ t.reqReady = true

/-- R301, R308: reset during a burst has no meaning, nor have two requests at once, in any phase. That a reset counts as
asserted during the burst when it is the next input, and not when `untilIdle` holds it back, is the model's choice
(log 30). -/
def Obligations.ResetInBurstAndTwoRequestsAreRefused : Prop :=
  (∀ s rest, s.busy = true → s.pending = .reset :: rest → step s = .refused .resetDuringBurst) ∧
  (∀ s p q rest, s.pending = .together p q :: rest → step s = .refused .twoRequestsAtOnce) ∧
  (∀ s rest, s.pending = .untilIdle :: .reset :: rest →
    (s.busy = true → step s = .next s.tick ∧ s.tick.pending = s.pending) ∧
    (s.busy = false → ∃ t u, step s = .next t ∧ step t = .next u ∧ u.sinkEn = false ∧ u.pending = rest))

/-- A step takes the record presented next and runs the instruction it decodes to; a record that decodes to none is
refused; the host's word is run by the very next step (log 1, log 4). -/
def Obligations.StepRunsTheDecodedInstruction : Prop :=
  (∀ s bytes rest i, s.busy = false → s.pending = .record bytes :: rest → decode bytes = .ok i →
    step s = exec i { s with pending := rest }) ∧
  (∀ s bytes rest e, s.busy = false → s.pending = .record bytes :: rest → decode bytes = .error e →
    step s = .refused (.undecodable e)) ∧
  (∀ s c rest, s.busy = false → s.pending = .call c :: rest → step s = execCall c { s with pending := rest }) ∧
  (∀ (s : State) nbits w i, decodeTableWord nbits w = some i → step (s.withFetchWord nbits w) = exec i s.toIdle)

/-- R287, R279: with nothing presented the block in phase IDLE does nothing, and every input presented outside a burst
other than two at once leaves the queue; `untilIdle` does nothing else (log 30). That inputs come in a queue is the
model's choice (log 4). -/
def Obligations.IdleBlockActsOnlyOnRequests : Prop :=
  (∀ s, s.busy = false → s.pending = [] → step s = .next s) ∧
  (∀ s t i rest, s.busy = false → s.pending = i :: rest → step s = .next t → t.pending = rest) ∧
  (∀ s rest, s.busy = false → s.pending = .untilIdle :: rest → step s = .next { s with pending := rest })

/-- Words written out from the encodings of 30_encoding.md and the table decode to their rows. -/
def Obligations.SpecWordsDecodeToTheirRows : Prop :=
  decodeTableWord 8 0b000 = some (.makeWord .engine 0 .action 0) ∧
  decodeTableWord 8 0b111 = some .systemHalt ∧
  decodeTableWord 16 0b0100001010011111 = some (.makeWordSwitch 5 .action 31) ∧
  decodeTableWord 16 0b1100100111101010 = some (.makeWordTrain 3 .absoluteSpeed 10) ∧
  decodeTableWord 16 0b1101001110011111 = some (.makeWordRoute 7 .action 31) ∧
  decodeTableWord 16 0b0000000010011100 = some (.actHorn1 1) ∧
  decodeTableWord 16 0b1111111111111111 = some .haltWord ∧
  decodeTableWord 24 0b111111100000000010011100 = some (.frame 0x00#8 0x9C#8)

/-- Every well-formed instruction is what its record decodes to: no operand bit is dropped. -/
def Obligations.DecodeOfEncodeIsTheInstruction : Prop := ∀ i : Instr, i.wf = true → decode (encode i) = .ok i

/-- R98: the five codes of `req_type`, with whatever the fields MAKE_WORD does not use hold (R97), and the three codes
that have no meaning, refused in a record and on the request port. The two middle class codes are PRESUMED (log 14).
-/
def Obligations.ObjectTypeCodesAndReservedCodes : Prop :=
  (∀ (t : ObjectType) (r : Request), r.op = 0b000#3 → r.type = t.code →
    decodeRequest r = .ok (.makeWord t r.addr.toNat (CmdClass.ofCode r.cls) r.data.toNat) ∧
    decode (reqRecord r) = .ok (.makeWord t r.addr.toNat (CmdClass.ofCode r.cls) r.data.toNat)) ∧
  (ObjectType.engine.code = 0b000#3 ∧ ObjectType.switch.code = 0b001#3 ∧ ObjectType.accessory.code = 0b010#3 ∧
    ObjectType.train.code = 0b011#3 ∧ ObjectType.route.code = 0b100#3) ∧
  (∀ (r : Request) s rest, r.op = 0b000#3 → 5 ≤ r.type.toNat → s.busy = false →
    (s.pending = .serial r :: rest → step s = .refused (.undecodable (.reservedType r.type.toNat))) ∧
    (s.pending = .record (reqRecord r) :: rest → step s = .refused (.undecodable (.reservedType r.type.toNat))))

/-! ### The word encoder -/

/-- R120: MAKE_WORD completes on every operand, its word is BASE + a * 128 + class * 32 + d, and nothing but the
response changes. The class numbers 1 of Extended and 2 of RelativeSpeed are PRESUMED (D5, log 14). -/
def Obligations.MakeWordGivesTheNumericWord : Prop :=
  ∀ t a c d s, ∃ w : Word, exec (.makeWord t a c d) s = .next (s.answered w) ∧ w.toNat = wordNumber t a c d

/-- R122 to R126: the five forms, field by field (`c.code` of the two middle classes is PRESUMED, log 14). -/
def Obligations.ObjectTypeFormsPackTheirFields : Prop :=
  ∀ a c d s,
    (∃ w : Word, exec (.makeWordEngine a c d) s = .next (s.answered w) ∧ w.extractLsb' 14 2 = 0b00#2 ∧
      w.extractLsb' 7 7 = BitVec.ofNat 7 a ∧ w.extractLsb' 5 2 = c.code ∧ w.extractLsb' 0 5 = BitVec.ofNat 5 d) ∧
    (∃ w : Word, exec (.makeWordSwitch a c d) s = .next (s.answered w) ∧ w.extractLsb' 14 2 = 0b01#2 ∧
      w.extractLsb' 7 7 = BitVec.ofNat 7 a ∧ w.extractLsb' 5 2 = c.code ∧ w.extractLsb' 0 5 = BitVec.ofNat 5 d) ∧
    (∃ w : Word, exec (.makeWordAccessory a c d) s = .next (s.answered w) ∧ w.extractLsb' 14 2 = 0b10#2 ∧
      w.extractLsb' 7 7 = BitVec.ofNat 7 a ∧ w.extractLsb' 5 2 = c.code ∧ w.extractLsb' 0 5 = BitVec.ofNat 5 d) ∧
    (∃ w : Word, exec (.makeWordTrain a c d) s = .next (s.answered w) ∧ w.extractLsb' 11 5 = 0b11001#5 ∧
      w.extractLsb' 7 4 = BitVec.ofNat 4 a ∧ w.extractLsb' 5 2 = c.code ∧ w.extractLsb' 0 5 = BitVec.ofNat 5 d) ∧
    (∃ w : Word, exec (.makeWordRoute a c d) s = .next (s.answered w) ∧ w.extractLsb' 12 4 = 0b1101#4 ∧
      w.extractLsb' 7 5 = BitVec.ofNat 5 a ∧ w.extractLsb' 5 2 = c.code ∧ w.extractLsb' 0 5 = BitVec.ofNat 5 d)

/-- The rows CLASS.<name> and TYPE.<name> perform MAKE_WORD with their code, R86 and R98 (that they stand for it is the
model's choice, log 2). The codes 01 of CLASS.EXTENDED and 10 of CLASS.RELATIVE_SPEED are PRESUMED (D5, log 14). -/
def Obligations.ClassAndTypeRowsPerformMakeWord : Prop :=
  ∀ t a c d s,
    (∃ w : Word, exec (.classAction t a d) s = .next (s.answered w) ∧ w.toNat = wordNumber t a .action d ∧
      w.extractLsb' 5 2 = 0b00#2) ∧
    (∃ w : Word, exec (.classExtended t a d) s = .next (s.answered w) ∧ w.toNat = wordNumber t a .extended d ∧
      w.extractLsb' 5 2 = 0b01#2) ∧
    (∃ w : Word, exec (.classRelativeSpeed t a d) s = .next (s.answered w) ∧
      w.toNat = wordNumber t a .relativeSpeed d ∧ w.extractLsb' 5 2 = 0b10#2) ∧
    (∃ w : Word, exec (.classAbsoluteSpeed t a d) s = .next (s.answered w) ∧
      w.toNat = wordNumber t a .absoluteSpeed d ∧ w.extractLsb' 5 2 = 0b11#2) ∧
    (∃ w : Word, exec (.typeEngine a c d) s = .next (s.answered w) ∧ w.toNat = wordNumber .engine a c d) ∧
    (∃ w : Word, exec (.typeSwitch a c d) s = .next (s.answered w) ∧ w.toNat = wordNumber .switch a c d) ∧
    (∃ w : Word, exec (.typeAccessory a c d) s = .next (s.answered w) ∧ w.toNat = wordNumber .accessory a c d) ∧
    (∃ w : Word, exec (.typeTrain a c d) s = .next (s.answered w) ∧ w.toNat = wordNumber .train a c d) ∧
    (∃ w : Word, exec (.typeRoute a c d) s = .next (s.answered w) ∧ w.toNat = wordNumber .route a c d)

/-- R130: the engine action word, by request and by word pattern. -/
def Obligations.EngineActionWordLayout : Prop :=
  ∀ a d s, ∃ w : Word,
    exec (.engineActionWord a d) s = .next (s.answered w) ∧
    exec (.engineActionWordWord a d) s = .next (s.answered w) ∧
    exec (.makeWord .engine a .action d) s = .next (s.answered w) ∧
    w.extractLsb' 14 2 = 0b00#2 ∧ (w.extractLsb' 7 7).toNat = a % 128 ∧ w.extractLsb' 5 2 = 0b00#2 ∧
    (w.extractLsb' 0 5).toNat = d % 32

/-- R131: the engine speed word, by request and by word pattern; the speed is clamped to 31. -/
def Obligations.EngineSpeedWordSaturates : Prop :=
  ∀ a v s, ∃ w : Word,
    exec (.engineSpeedWord a v) s = .next (s.answered w) ∧
    exec (.engineSpeedWordWord a v) s = .next (s.answered w) ∧
    exec (.makeWord .engine a .absoluteSpeed (min v 31)) s = .next (s.answered w) ∧
    w.extractLsb' 14 2 = 0b00#2 ∧ (w.extractLsb' 7 7).toNat = a % 128 ∧ w.extractLsb' 5 2 = 0b11#2 ∧
    (w.extractLsb' 0 5).toNat = min v 31

/-- The rows ACT.<name>: the Engine action word of each code of R221. Every number but HORN1's is PRESUMED (log 10).
That the rows ACT are operations that answer their word is the model's choice (log 2). -/
def Obligations.NamedActionRowsGiveTheirWords : Prop :=
  ∀ p ∈ [(Instr.actForward, 0x00), (Instr.actToggleDirection, 0x01), (Instr.actReverse, 0x03), (Instr.actBoost, 0x04),
      (Instr.actFrontCoupler, 0x05), (Instr.actRearCoupler, 0x06), (Instr.actBrake, 0x07), (Instr.actAux1Off, 0x08),
      (Instr.actAux1Option1, 0x09), (Instr.actAux1Option2, 0x0A), (Instr.actAux1On, 0x0B), (Instr.actAux2Off, 0x0C),
      (Instr.actAux2Option1, 0x0D), (Instr.actAux2Option2, 0x0E), (Instr.actAux2On, 0x0F), (Instr.actHorn1, 0x1C),
      (Instr.actBell, 0x1D), (Instr.actLetOff, 0x1E), (Instr.actHorn2, 0x1F)],
    ∀ a s, ∃ w : Word, exec (p.1 a) s = .next (s.answered w) ∧ w.toNat = a % 128 * 128 + p.2

/-- R127: the words MAKE_WORD returns are exactly the assigned ones; in particular never `0xFFFF`. -/
def Obligations.MakeWordReturnsExactlyTheAssignedWords : Prop :=
  ∀ w : Word,
    ((∃ t a c d, ∀ s, exec (.makeWord t a c d) s = .next (s.answered w)) ↔
      (w.toNat ≤ 0xBFFF ∨ (0xC800 ≤ w.toNat ∧ w.toNat ≤ 0xCFFF) ∨ (0xD000 ≤ w.toNat ∧ w.toNat ≤ 0xDFFF))) ∧
    (Unassigned w → ∀ t a c d s, exec (.makeWord t a c d) s ≠ .next (s.answered w))

/-- R128: MAKE_WORD is injective on operands in range, reduces every operand by its mask, and depends on nothing but
the operands. -/
def Obligations.MakeWordIsLosslessInRange : Prop :=
  (∀ t a c d t' a' c' d' s, a < 2 ^ typeAddressWidth t → d < 32 → a' < 2 ^ typeAddressWidth t' → d' < 32 →
    exec (.makeWord t a c d) s = exec (.makeWord t' a' c' d') s → t = t' ∧ a = a' ∧ c = c' ∧ d = d') ∧
  (∀ t a c d s, exec (.makeWord t a c d) s = exec (.makeWord t (a % 2 ^ typeAddressWidth t) c (d % 32)) s) ∧
  (∀ t a c d, ∃ w : Word, ∀ s, exec (.makeWord t a c d) s = .next (s.answered w))

/-- R104: the decoder of the block's output recovers the operands from the first frame of any burst of the word, knows
the halt word, and calls the unassigned words so; a first byte other than the header is no frame, nor are fewer than
three bytes. -/
def Obligations.OutputDecoderRecoversTheOperands : Prop :=
  (∀ t a c d s, a < 2 ^ typeAddressWidth t → d < 32 → ∃ w : Word, exec (.makeWord t a c d) s = .next (s.answered w) ∧
    (∀ rest, readFrame (frameNumbers w ++ rest) = .assigned ⟨t, a, c, d⟩) ∧
    (∀ n, s.sinkEn = true → ∃ bytes, exec (.sendFrameRepeated w n) s = .next (s.sent bytes) ∧
      readFrame bytes = .assigned ⟨t, a, c, d⟩)) ∧
  (∀ s, s.sinkEn = true → ∃ bytes, exec .systemHalt s = .next (s.sent bytes) ∧ readFrame bytes = .halt) ∧
  (∀ (w : Word) rest, Unassigned w → w ≠ 0xFFFF#16 → readFrame (frameNumbers w ++ rest) = .unassigned) ∧
  (∀ (header : Byte) rest, header ≠ 0xFE#8 → readFrame (header :: rest) = .noFrame) ∧
  (∀ bytes : List Byte, bytes.length < 3 → readFrame bytes = .noFrame)

/-- R85, R90: a word has at most one reading, found by its leading bits; a word has none exactly when it is
unassigned. Its fields are those of which R120 gives it as the number; the class numbers 1 and 2 there (R86) are
PRESUMED (D5, log 14). -/
def Obligations.WordHasAtMostOneReading : Prop :=
  ∀ w : Word,
    (readWord w = none ↔ Unassigned w) ∧
    (∀ f, readWord w = some f ↔
      (f.address < 2 ^ typeAddressWidth f.type ∧ f.data < 32 ∧ w.toNat = wordNumber f.type f.address f.cls f.data))

/-- R132: the codec operations and every row that is a form of one answer a word that depends on the operands alone,
with or without a sink, and change nothing but the response. R132 speaks of the three codec operations: that the rows
CLASS, TYPE and ACT are such operations is the model's choice (log 2). -/
def Obligations.CodecOperationsTouchNothing : Prop :=
  ∀ i : Instr, isCodec i = true → ∃ w : Word, ∀ s, exec i s = .next (s.answered w)

/-- R95: the low byte of an encoder word is `0xFE` exactly when address bit 0 is 1, the class AbsoluteSpeed and the
data 30; its high byte never is. -/
def Obligations.HeaderByteInsideAWord : Prop :=
  ∀ t a c d s, ∃ w : Word, exec (.makeWord t a c d) s = .next (s.answered w) ∧
    (w.toNat % 256 = 0xFE ↔ (a % 2 = 1 ∧ c = .absoluteSpeed ∧ d % 32 = 30)) ∧ w.toNat / 256 ≠ 0xFE

/-! ### The transmitter -/

/-- R151: SET_SINK sets `sink_en` and reports OK; with a sink attached it changes nothing but the response. -/
def Obligations.SetSinkAttaches : Prop :=
  ∀ i ∈ [Instr.setSink, Instr.facadeAttachSink], ∀ s,
    exec i s = .next { s with sinkEn := true, responses := s.responses ++ [⟨.ok, none⟩] } ∧
    (s.sinkEn = true → exec i s = .next { s with responses := s.responses ++ [⟨.ok, none⟩] })

/-- R152: SEND_FRAME, with and without a sink. -/
def Obligations.SendFrameWritesThreeBytesAndFlushes : Prop :=
  ∀ (w : Word) s,
    (s.sinkEn = true → exec (.sendFrame w) s = .next (s.sent (frameNumbers w))) ∧
    (s.sinkEn = false → exec (.sendFrame w) s = .next s.unsent)

/-- The row FRAME sends the frame whose bytes it shows (R92), and the row HALT_WORD the ten halt frames of SYSTEM_HALT
(R155). That the two rows stand for these sends is the model's choice (log 2). -/
def Obligations.FrameAndHaltWordRowsSend : Prop :=
  (∀ (high low : Byte) s,
    (s.sinkEn = true → exec (.frame high low) s = .next (s.sent [0xFE#8, high, low])) ∧
    (s.sinkEn = false → exec (.frame high low) s = .next s.unsent)) ∧
  (∀ s,
    (s.sinkEn = true → ∃ bytes, exec .haltWord s = .next (s.sent bytes) ∧ bytes.length = 30 ∧
      ∀ k, k < 10 → (bytes.drop (3 * k)).take 3 = [0xFE#8, 0xFF#8, 0xFF#8]) ∧
    (s.sinkEn = false → exec .haltWord s = .next s.unsent))

/-- R154: SEND_FRAME_REPEATED makes one write of 1 to 30 whole frames, whatever the operand, and one flush. -/
def Obligations.SendFrameRepeatedWritesOneBurst : Prop :=
  ∀ (w : Word) n s,
    (s.sinkEn = true → ∃ bytes, exec (.sendFrameRepeated w n) s = .next (s.sent bytes) ∧
      bytes.length = 3 * max 1 (min n 30) ∧
      ∀ k, k < max 1 (min n 30) → (bytes.drop (3 * k)).take 3 = frameNumbers w) ∧
    (s.sinkEn = false → exec (.sendFrameRepeated w n) s = .next s.unsent)

/-- R153: SEND_FRAME is SEND_FRAME_REPEATED with a count of one, in every state. -/
def Obligations.SendFrameIsTheCountOfOne : Prop :=
  ∀ (w : Word) s t, exec (.sendFrame w) s = .next t → exec (.sendFrameRepeated w 1) s = .next t

/-- R155: SYSTEM_HALT, by request and by the facade (R239): ten frames of `0xFFFF` in one write of 30 bytes; it is
SEND_FRAME_REPEATED(0xFFFF, 10); no entity is touched. -/
def Obligations.SystemHaltWritesTenAllOnesFrames : Prop :=
  ∀ i ∈ [Instr.systemHalt, Instr.facadeSystemHalt], ∀ s,
    (s.sinkEn = true → ∃ bytes, exec i s = .next (s.sent bytes) ∧ bytes.length = 30 ∧
      ∀ k, k < 10 → (bytes.drop (3 * k)).take 3 = [0xFE#8, 0xFF#8, 0xFF#8]) ∧
    (s.sinkEn = false → exec i s = .next s.unsent) ∧
    exec i s = exec (.sendFrameRepeated 0xFFFF#16 10) s

/-- R156: SEND_RAW_BYTES and FACADE.raw_burst (R240) write their operand unchanged; an empty list or one longer than
`RAW_MAX` has no meaning. `RAW_MAX` is at least 6 (R8). That a flush follows a raw burst is RAW_FLUSH = 1 (log 13, D11);
that the length is checked before the sink is log 20. -/
def Obligations.SendRawBytesWritesItsOperand : Prop :=
  6 ≤ Config.rawMax ∧
  ∀ (bytes : List Byte) s, ∀ i ∈ [Instr.sendRawBytes bytes, Instr.facadeRawBurst bytes],
    (1 ≤ bytes.length → bytes.length ≤ Config.rawMax → s.sinkEn = true → exec i s = .next (s.sent bytes)) ∧
    (1 ≤ bytes.length → bytes.length ≤ Config.rawMax → s.sinkEn = false → exec i s = .next s.unsent) ∧
    (bytes = [] ∨ Config.rawMax < bytes.length → exec i s = .refused (.rawLength bytes.length))

/-- R272: without a sink every transmit operation reports UNAVAILABLE, emits one diagnostic and changes nothing else; so
does every facade row that transmits, as far as the sink and the diagnostics go (of its registers nothing is said here);
the codec operations and SET_SINK never raise it. R272 names the request operations: that the rows HALT_WORD and FRAME
transmit, and that the rows CLASS, TYPE and ACT are codec operations, is the model's choice (log 2), and so is the last
response of a facade row (log 18). -/
def Obligations.TransmitWithoutSinkSendsNothing : Prop :=
  (∀ i : Instr, transmits i = true → rawFits i = true → ∀ s, s.sinkEn = false → exec i s = .next s.unsent) ∧
  (∀ i e s t, entity i = some e → s.sinkEn = false → exec i s = .next t →
    t.sinkTrace = s.sinkTrace ∧ t.diagTrace = s.diagTrace ++ [.noSink] ∧
      t.responses.getLast? = some ⟨.unavailable, none⟩) ∧
  (∀ i s, isCodec i = true ∨ attaches i = true → ∃ t rsp, exec i s = .next t ∧
    t.sinkTrace = s.sinkTrace ∧ t.diagTrace = s.diagTrace ∧ t.responses = s.responses ++ [rsp] ∧ rsp.status = .ok)

/-- R150: every transmit operation has one shape: with a sink exactly one write of a non-empty list that does not depend
on the state, then one flush and status OK; without one a diagnostic and status UNAVAILABLE. R150 names four operations:
that the rows HALT_WORD and FRAME transmit is the model's choice (log 2); the rows FACADE.system_halt and
FACADE.raw_burst issue two of the four (R239, R240). The flush after a raw burst is RAW_FLUSH = 1 (log 13). -/
def Obligations.TransmitOperationsShareOneShape : Prop :=
  ∀ i : Instr, transmits i = true → rawFits i = true →
    ∃ bytes, bytes ≠ [] ∧ ∀ s,
      (s.sinkEn = true → exec i s = .next (s.sent bytes)) ∧ (s.sinkEn = false → exec i s = .next s.unsent)

/-- R38: the operation after a failed one behaves as if the failed one had not been issued, apart from the diagnostic
trace and the response the failed one gave. That the rows HALT_WORD and FRAME are operations that fail so is the model's
choice (log 2), and so is what the rows CLASS, TYPE and ACT do as the next operation. Where the next operation is a facade
setter, that it updates its entity alike in both runs, both without a sink, rests on the one parameter
FACADE_UPDATE_ON_UNAVAILABLE shared by every call, the model's choice (log 7): R223 and D20 make no claim about the entity
after such a call. -/
def Obligations.FailedOperationLeavesTheNextOneAlone : Prop :=
  ∀ i j : Instr, transmits i = true → rawFits i = true → ∀ s t, s.sinkEn = false → exec i s = .next t →
    t = s.unsent ∧ t.sinkEn = s.sinkEn ∧
    (∀ u, exec j s = .next u → ∃ v, exec j t = .next v ∧
      ∃ diags rsps, u.diagTrace = s.diagTrace ++ diags ∧ u.responses = s.responses ++ rsps ∧
        v = { u with diagTrace := t.diagTrace ++ diags, responses := t.responses ++ rsps }) ∧
    (∀ r, exec j s = .refused r → exec j t = .refused r)

/-- R161: apart from `sink_en` no operation's effect on the traces depends on what came before. That the rows HALT_WORD,
FRAME, CLASS, TYPE and ACT are operations is the model's choice (log 2). -/
def Obligations.OperationsAreIndependentOfHistory : Prop :=
  ∀ i : Instr, entity i = none → ∀ s s' t, s.sinkEn = s'.sinkEn → exec i s = .next t →
    ∃ t' events diags rsps, exec i s' = .next t' ∧
      t.sinkTrace = s.sinkTrace ++ events ∧ t'.sinkTrace = s'.sinkTrace ++ events ∧
      t.diagTrace = s.diagTrace ++ diags ∧ t'.diagTrace = s'.diagTrace ++ diags ∧
      t.responses = s.responses ++ rsps ∧ t'.responses = s'.responses ++ rsps ∧ t.sinkEn = t'.sinkEn

/-- R22: only SET_SINK writes `sink_en`, and it sets it; nothing clears it but reset. A step that changes `sink_en`
takes the reset input, a SET_SINK request of the port, or a record of SET_SINK or of the facade call that issues it.
That the rows HALT_WORD, FRAME, CLASS, TYPE and ACT are operations is the model's choice (log 2). -/
def Obligations.OnlySetSinkWritesSinkEn : Prop :=
  (∀ i s t, exec i s = .next t → t.sinkEn = (s.sinkEn || attaches i)) ∧
  (∀ s t, (∀ rest, s.pending ≠ .reset :: rest) → s.sinkEn = true → step s = .next t → t.sinkEn = true) ∧
  (∀ s t, step s = .next t → t.sinkEn ≠ s.sinkEn → s.busy = false ∧ ∃ rest,
    s.pending = .reset :: rest ∨ (∃ r : Request, s.pending = .serial r :: rest ∧ r.op = 0b011#3) ∨
    (∃ bytes i, s.pending = .record bytes :: rest ∧ decode bytes = .ok i ∧ attaches i = true))

/-- R26: the traces and the responses are only ever appended to, reset apart. That the rows HALT_WORD, FRAME, CLASS,
TYPE and ACT are operations is the model's choice (log 2). -/
def Obligations.TracesAreOnlyAppendedTo : Prop :=
  ∀ s t, (∀ rest, s.pending ≠ .reset :: rest) → step s = .next t → t.Extends s

/-- No instruction writes the sequencer's registers or the other inputs at the transaction level (R24, R152), and none
ends in a fault (R288). That the rows HALT_WORD, FRAME, CLASS, TYPE and ACT are operations is the model's choice (log
2). -/
def Obligations.InstructionsLeaveTheSequencerAlone : Prop :=
  ∀ i s,
    (∀ r, exec i s ≠ .fault r) ∧
    (∀ t, exec i s = .next t →
      t.busy = s.busy ∧ t.raw = s.raw ∧ t.wordReg = s.wordReg ∧ t.repCnt = s.repCnt ∧ t.byteIdx = s.byteIdx ∧
      t.rawIdx = s.rawIdx ∧ t.reqRaw = s.reqRaw ∧ t.burst = s.burst ∧ t.pending = s.pending ∧
      t.sinkReady = s.sinkReady ∧ t.sinkTail = s.sinkTail ∧ t.speedResults = s.speedResults)

/-- R303, R282: every operation of the block has a defined result in every state, whatever was or was not set up; only
a raw list of a length outside 1 to `RAW_MAX` has none. That the rows HALT_WORD, FRAME, CLASS, TYPE and ACT are
operations is the model's choice (log 2). -/
def Obligations.BlockOperationsCompleteInEveryState : Prop :=
  ∀ i : Instr, entity i = none → ∀ s, ((∃ t, exec i s = .next t) ↔ rawFits i = true)

/-! ### The caller's facade -/

/-- R228: `set_speed` stores and sends the speed clamped to the entity's maximum; without a sink nothing is sent (and
nothing is said of the entity, R223). The two responses are those of the two block operations the call issues, the
model's choice (log 18). -/
def Obligations.SetSpeedStoresAndSendsTheClampedSpeed : Prop :=
  ∀ e v s E a m, s.engines[e]? = some E → E.address = some a → E.maxSpeed = some m →
    (s.sinkEn = true → ∃ (w : Word) (c : BitVec 5),
      exec (.facadeSetSpeed e v) s = .next { (s.answered w).sent (frameNumbers w) with
        engines := s.engines.set e { E with currentSpeed := some c } } ∧
      c.toNat = min v m.toNat ∧ w.toNat = a.toNat * 128 + 0x60 + min v m.toNat) ∧
    (s.sinkEn = false → ∃ t, exec (.facadeSetSpeed e v) s = .next t ∧ t.sinkTrace = s.sinkTrace ∧
      t.diagTrace = s.diagTrace ++ [.noSink] ∧ ∀ k, k ≠ e → t.engines[k]? = s.engines[k]?)

/-- R230, R231: the direction actions set the flag and send one frame of their code. The codes are PRESUMED (log 10);
the two responses are those of the two block operations the action issues, the model's choice (log 18). -/
def Obligations.DirectionActionsSetTheFlagAndSend : Prop :=
  ∀ e s E a, s.engines[e]? = some E → E.address = some a →
    ∀ p ∈ [(Instr.facadeSetDirectionForward e, Direction.forward, EngineAction.forward),
        (Instr.facadeSetDirectionReverse e, Direction.reverse, EngineAction.reverse)],
      (s.sinkEn = true → ∃ w : Word,
        exec p.1 s = .next { (s.answered w).sent (frameNumbers w) with
          engines := s.engines.set e { E with direction := some p.2.1 } } ∧
        w.toNat = a.toNat * 128 + p.2.2.code.toNat) ∧
      (s.sinkEn = false → ∃ t, exec p.1 s = .next t ∧ t.sinkTrace = s.sinkTrace ∧
        t.diagTrace = s.diagTrace ++ [.noSink] ∧ ∀ k, k ≠ e → t.engines[k]? = s.engines[k]?)

/-- R232 to R235: couplers, boost and brake send one frame of their code and leave the entity as it is. The codes are
PRESUMED (log 10); the two responses are those of the two block operations the action issues, the model's choice
(log 18). -/
def Obligations.SingleShotActionsSendOneFrame : Prop :=
  ∀ e s E a, s.engines[e]? = some E → E.address = some a →
    ∀ p ∈ [(Instr.facadeOpenFrontCoupler e, EngineAction.frontCoupler),
        (Instr.facadeOpenRearCoupler e, EngineAction.rearCoupler), (Instr.facadeBoost e, EngineAction.boost),
        (Instr.facadeBrake e, EngineAction.brake)],
      ∃ w : Word, w.toNat = a.toNat * 128 + p.2.code.toNat ∧
        (s.sinkEn = true → exec p.1 s = .next ((s.answered w).sent (frameNumbers w))) ∧
        (s.sinkEn = false → exec p.1 s = .next (s.answered w).unsent)

/-- R236, R237: horn and bell send thirty frames in one write of 90 bytes and leave the entity as it is. The bell's code
is PRESUMED (log 10); the two responses are those of the two block operations the action issues, the model's choice
(log 18). -/
def Obligations.HornAndBellSendThirtyFrames : Prop :=
  ∀ e s E a, s.engines[e]? = some E → E.address = some a →
    ∀ p ∈ [(Instr.facadeBlowHorn e, EngineAction.horn1), (Instr.facadeRingBell e, EngineAction.bell)],
      ∃ (w : Word) (bytes : List Byte), w.toNat = a.toNat * 128 + p.2.code.toNat ∧ bytes.length = 90 ∧
        (∀ k, k < 30 → (bytes.drop (3 * k)).take 3 = frameNumbers w) ∧
        (s.sinkEn = true → exec p.1 s = .next ((s.answered w).sent bytes)) ∧
        (s.sinkEn = false → exec p.1 s = .next (s.answered w).unsent)

/-- R226, R227: `set_address` masks to 7 bits, `set_max_speed` clamps to 31; neither sends anything. A maximum below
the stored current speed has no meaning. The refusal of a maximum below the stored speed is the spec's U7 (log 27). -/
def Obligations.AddressAndMaxSpeedSetters : Prop :=
  ∀ e v s E, s.engines[e]? = some E →
    (∃ a : BitVec 7, a.toNat = v % 128 ∧
      execCall (.setAddress e v) s = .next { s with engines := s.engines.set e { E with address := some a } }) ∧
    ((∀ c, E.currentSpeed = some c → c.toNat ≤ min v 31) → ∃ m : BitVec 5, m.toNat = min v 31 ∧
      execCall (.setMaxSpeed e v) s = .next { s with engines := s.engines.set e { E with maxSpeed := some m } }) ∧
    (∀ c, E.currentSpeed = some c → min v 31 < c.toNat →
      execCall (.setMaxSpeed e v) s = .refused .maxSpeedBelowCurrent)

/-- R229: `get_current_speed` returns the stored speed, sends nothing and changes nothing; after `set_speed` with a sink
that is the clamped value. -/
def Obligations.GetCurrentSpeedReturnsTheClampedSpeed : Prop :=
  (∀ e s E c, s.engines[e]? = some E → E.currentSpeed = some c →
    execCall (.getCurrentSpeed e) s = .next { s with speedResults := s.speedResults ++ [c] }) ∧
  (∀ e v s E a m, s.engines[e]? = some E → E.address = some a → E.maxSpeed = some m → s.sinkEn = true →
    ∃ t, exec (.facadeSetSpeed e v) s = .next t ∧ ∃ c : BitVec 5, c.toNat = min v m.toNat ∧
      execCall (.getCurrentSpeed e) t = .next { t with speedResults := t.speedResults ++ [c] })

/-- `test_pattern` (R241): the six literal bytes, then the horn command of the open address on the horn path (the
address and the path are decisions of the spec, log 6). The three responses, the codec's among them, are those of the
block operations the call issues, the model's choice (log 18). That a flush follows a raw burst is RAW_FLUSH = 1 (log
13, D11). -/
def Obligations.TestPatternSendsItsBytesThenTheHorn : Prop :=
  ∀ s, ∃ (w : Word) (bytes : List Byte), w.toNat = Config.testHornAddr % 128 * 128 + 0x1C ∧ bytes.length = 90 ∧
    (∀ k, k < 30 → (bytes.drop (3 * k)).take 3 = frameNumbers w) ∧
    (s.sinkEn = true → execCall .testPattern s =
      .next (((s.sent [0x55#8, 0xAA#8, 0x00#8, 0xFF#8, 0x55#8, 0xAA#8]).answered w).sent bytes)) ∧
    (s.sinkEn = false → execCall .testPattern s = .next (s.unsent.answered w).unsent)

/-- R224: a facade row on an entity whose address no setter has written has no meaning; nor has `set_speed` without a
maximum, nor reading an unset speed. With neither set, that the refusal of `set_speed` names the maximum is DEDUCED
(log 26). A new entity holds none of the fields, and creating it appends it and changes nothing else. -/
def Obligations.UnsetEngineFieldsAreRefused : Prop :=
  (∀ e s E, s.engines[e]? = some E →
    (E.address = none → ∀ i : Instr, entity i = some e → ∃ field, exec i s = .refused (.engineFieldUnset field)) ∧
    (E.maxSpeed = none → ∀ v, exec (.facadeSetSpeed e v) s = .refused (.engineFieldUnset .maxSpeed)) ∧
    (E.currentSpeed = none → execCall (.getCurrentSpeed e) s = .refused (.engineFieldUnset .currentSpeed))) ∧
  (∀ s, ∃ F, execCall .createEngine s = .next { s with engines := s.engines ++ [F] } ∧
    F.address = none ∧ F.maxSpeed = none ∧ F.currentSpeed = none ∧ F.direction = none)

/-- R35: the entities are independent: a row changes no entity but the one it acts on, and of that one neither the
address nor the maximum. That the rows HALT_WORD, FRAME, CLASS, TYPE and ACT are operations is the model's choice (log
2). -/
def Obligations.EntitiesAreIndependent : Prop :=
  ∀ i s t, exec i s = .next t →
    (∀ k, entity i ≠ some k → t.engines[k]? = s.engines[k]?) ∧ t.engines.length = s.engines.length ∧
    (∀ (k : Nat) (E F : Engine), s.engines[k]? = some E → t.engines[k]? = some F →
      F.address = E.address ∧ F.maxSpeed = E.maxSpeed)

/-! ### The byte-serial sequencer -/

/-- R193: the accept step of a framed request with a sink. -/
def Obligations.FramedAcceptLoadsTheCounter : Prop :=
  ∀ s (r : Request) rest, s.busy = false → s.pending = .serial r :: rest → s.sinkEn = true →
    (r.op = 0b100#3 → step s = .next { s with
      pending := rest, wordReg := r.word, repCnt := 1#5, byteIdx := 0#2, raw := false, busy := true }) ∧
    (r.op = 0b101#3 → ∃ n : BitVec 5, n.toNat = max 1 (min r.reps.toNat 30) ∧ step s = .next { s with
      pending := rest, wordReg := r.word, repCnt := n, byteIdx := 0#2, raw := false, busy := true }) ∧
    (r.op = 0b111#3 → step s = .next { s with
      pending := rest, wordReg := 0xFFFF#16, repCnt := 10#5, byteIdx := 0#2, raw := false, busy := true })

/-- R197: the refused accept changes no register and stays in phase IDLE. -/
def Obligations.AcceptWithoutSinkIsRefused : Prop :=
  ∀ s (r : Request) rest, s.busy = false → s.pending = .serial r :: rest → s.sinkEn = false →
    (r.op = 0b100#3 ∨ r.op = 0b101#3 ∨ r.op = 0b111#3 ∨ (r.op = 0b110#3 ∧ rawLengthOk r.raw.length = true)) →
    step s = .next { s.unsent with pending := rest } ∧
    ∀ t, step s = .next t → t.phase = .idle ∧ t.snkValid = false ∧ t.snkFlush = false

/-- R204: on the request port the codec operations and SET_SINK are whole in the accept step and leave the phase
IDLE. -/
def Obligations.CodecRequestsTakeOneStep : Prop :=
  ∀ s (r : Request) rest i, s.busy = false → s.pending = .serial r :: rest → decodeRequest r = .ok i →
    (isCodec i = true ∨ i = .setSink) →
    step s = exec i { s with pending := rest } ∧ ∃ t, step s = .next t ∧ t.phase = .idle ∧
      ∃ rsp, t.responses = s.responses ++ [rsp]

/-- R194, R195: the emit step of a framed burst: the byte and `snk_last` by `byte_idx` and `rep_cnt`, offered whether or
not the sink is ready; the counters after a transfer, the last byte ending the write; a stalled sink changes nothing. -/
def Obligations.FramedEmitStep : Prop :=
  ∀ s, s.busy = true → s.raw = false → 0 < s.repCnt.toNat → s.byteIdx.toNat ≤ 2 → s.undisturbed = true →
    (s.snkReady = false → step s = .next { s with sinkReady := s.sinkReady.tail }) ∧
    (s.byteIdx.toNat = 0 → s.snkByte = some 0xFE#8 ∧ s.snkLast = false ∧
      (s.snkReady = true → step s = .next { s with
        sinkReady := s.sinkReady.tail, burst := s.burst ++ [0xFE#8], byteIdx := 1#2 })) ∧
    (s.byteIdx.toNat = 1 → ∃ b : Byte, b.toNat = s.wordReg.toNat / 256 ∧ s.snkByte = some b ∧ s.snkLast = false ∧
      (s.snkReady = true → step s = .next { s with
        sinkReady := s.sinkReady.tail, burst := s.burst ++ [b], byteIdx := 2#2 })) ∧
    (s.byteIdx.toNat = 2 → ∃ b : Byte, b.toNat = s.wordReg.toNat % 256 ∧ s.snkByte = some b ∧
      (1 < s.repCnt.toNat → s.snkLast = false ∧ (s.snkReady = true → ∃ n : BitVec 5, n.toNat = s.repCnt.toNat - 1 ∧
        step s = .next { s with
          sinkReady := s.sinkReady.tail, burst := s.burst ++ [b], byteIdx := 0#2, repCnt := n })) ∧
      (s.repCnt.toNat = 1 → s.snkLast = true ∧ (s.snkReady = true → step s = .next { s with
        sinkReady := s.sinkReady.tail, burst := [], byteIdx := 0#2, repCnt := 0#5,
        sinkTrace := s.sinkTrace ++ [.write (s.burst ++ [b])] })))

/-- R198: the raw path: its accept, and its emit step. -/
def Obligations.RawAcceptAndEmitSteps : Prop :=
  (∀ s (r : Request) rest, s.busy = false → s.pending = .serial r :: rest → s.sinkEn = true → r.op = 0b110#3 →
    1 ≤ r.raw.length → r.raw.length ≤ Config.rawMax →
    step s = .next { s with pending := rest, raw := true, rawIdx := 0, reqRaw := r.raw, busy := true }) ∧
  (∀ s b, s.busy = true → s.raw = true → s.reqRaw[s.rawIdx]? = some b → s.undisturbed = true →
    s.snkByte = some b ∧
    (s.snkReady = false → step s = .next { s with sinkReady := s.sinkReady.tail }) ∧
    (s.rawIdx + 1 < s.reqRaw.length → s.snkLast = false ∧ (s.snkReady = true → step s = .next { s with
      sinkReady := s.sinkReady.tail, burst := s.burst ++ [b], rawIdx := s.rawIdx + 1 })) ∧
    (s.rawIdx + 1 = s.reqRaw.length → s.snkLast = true ∧ (s.snkReady = true → step s = .next { s with
      sinkReady := s.sinkReady.tail, burst := [], rawIdx := s.rawIdx + 1,
      sinkTrace := s.sinkTrace ++ [.write (s.burst ++ [b])] })))

/-- R196: the flush step: one flush pulse, `busy` and `raw_idx` cleared, the response OK, phase IDLE. That `raw`,
`word_reg` and the list the caller held keep their values is the model's choice (log 19); that a raw burst has the pulse
too is RAW_FLUSH = 1 (log 13). -/
def Obligations.FlushStepAnswersAndReturnsToIdle : Prop :=
  ∀ s, s.phase = .flush → s.undisturbed = true →
    s.snkFlush = true ∧
    step s = .next { s with
      sinkTrace := s.sinkTrace ++ [.flush], busy := false, rawIdx := 0, responses := s.responses ++ [⟨.ok, none⟩] } ∧
    ∀ t, step s = .next t → t.phase = .idle

/-- R202, R201: while `busy = 1` no request is taken and none answered but by the flush step; EMIT never returns to IDLE
without FLUSH. -/
def Obligations.BusyBlockTakesNoRequest : Prop :=
  ∀ s t, s.busy = true → step s = .next t →
    s.reqReady = false ∧ t.pending = s.pending ∧ t.sinkEn = s.sinkEn ∧ t.wordReg = s.wordReg ∧
    t.engines = s.engines ∧ t.diagTrace = s.diagTrace ∧ t.sinkTail = s.sinkTail ∧
    (s.phase = .emit → t.busy = true ∧ t.responses = s.responses)

/-- The invariant holds at reset. -/
def Obligations.ResetMeetsTheInvariant : Prop := State.reset.Inv

/-- R199 with R52, R60 and R225: every step from a state that meets the invariant gives one that meets it. That a
flush follows a raw burst is RAW_FLUSH = 1 (log 13, D11). That the rows HALT_WORD, FRAME, CLASS, TYPE and ACT are
operations is the model's choice (log 2). -/
def Obligations.EveryStepKeepsTheInvariant : Prop := ∀ s t, s.Inv → step s = .next t → t.Inv

/-- R27, R58, R60: in phase IDLE every byte ever written has been handed to the hardware. That a flush follows a raw
burst is RAW_FLUSH = 1 (log 13, D11). -/
def Obligations.IdleBlockHasHandedOverEveryByte : Prop :=
  ∀ s : State, s.Inv → s.busy = false → handedStream s.sinkTrace = wireStream s.sinkTrace

/-- R200: the two levels agree for framed requests. The run ends because the sink is ready infinitely often, the premise
of R203 (how its readiness is held is log 11); whatever else it does, the byte-serial run ends in phase IDLE with the
transaction's events and response, and differs from it in `word_reg` and `raw`, which the burst leaves as they are
(log 19), and in the readiness used, alone. -/
def Obligations.ByteSerialRunAgreesForFramedRequests : Prop :=
  ∀ s (r : Request) w n, s.Inv → s.busy = false → s.sinkEn = true → s.pending = [.serial r] → s.SinkFair →
    ((r.op = 0b100#3 ∧ w = r.word ∧ n = 1) ∨ (r.op = 0b101#3 ∧ w = r.word ∧ n = r.reps.toNat) ∨
      (r.op = 0b111#3 ∧ w = 0xFFFF#16 ∧ n = 10)) →
    ∃ k u ready, exec (.sendFrameRepeated w n) { s with pending := [] } = .next u ∧
      (∃ i, decodeRequest r = .ok i ∧ exec i { s with pending := [] } = .next u) ∧
      run k s = .next { u with wordReg := w, raw := false, sinkReady := ready }

/-- R200, the raw path: the run ends because the sink is ready infinitely often, the premise of R203 (log 11), and
leaves `raw` and the list the caller held as they are (log 19). That a flush follows a raw burst is RAW_FLUSH = 1 (log
13, D11). -/
def Obligations.ByteSerialRunAgreesForRawRequests : Prop :=
  ∀ s (r : Request), s.Inv → s.busy = false → s.sinkEn = true → s.pending = [.serial r] → s.SinkFair →
    r.op = 0b110#3 → 1 ≤ r.raw.length → r.raw.length ≤ Config.rawMax →
    ∃ k u ready, exec (.sendRawBytes r.raw) { s with pending := [] } = .next u ∧
      run k s = .next { u with raw := true, reqRaw := r.raw, sinkReady := ready }

/-- R199, R288: a framed burst of count `n`, of SEND_FRAME, SEND_FRAME_REPEATED or SYSTEM_HALT, takes the accept step,
`3n` transfers, the flush step and one step for every stall of the sink, no more, if the sink is ready infinitely
often, the premise of R203 (log 11). -/
def Obligations.FramedBurstEndsInBoundedSteps : Prop :=
  ∀ s (r : Request) w n, s.Inv → s.busy = false → s.sinkEn = true → s.pending = [.serial r] → s.SinkFair →
    ((r.op = 0b100#3 ∧ w = r.word ∧ n = 1) ∨ (r.op = 0b101#3 ∧ w = r.word ∧ n = max 1 (min r.reps.toNat 30)) ∨
      (r.op = 0b111#3 ∧ w = 0xFFFF#16 ∧ n = 10)) →
    ∃ k t, k ≤ 3 * n + 2 + s.sinkReady.count false ∧ run k s = .next t ∧ t.phase = .idle ∧
      t.sinkTrace = s.sinkTrace ++ [.write (List.replicate n (frameNumbers w)).flatten, .flush]

/-- R288: a raw burst takes the accept step, one transfer for each of its 1 to `RAW_MAX` bytes, the flush step and one
step for every stall of the sink, no more, if the sink is ready infinitely often, the premise of R203 (log 11). That a
flush follows a raw burst is RAW_FLUSH = 1 (log 13, D11). -/
def Obligations.RawBurstEndsInBoundedSteps : Prop :=
  ∀ s (r : Request), s.Inv → s.busy = false → s.sinkEn = true → s.pending = [.serial r] → s.SinkFair →
    r.op = 0b110#3 → 1 ≤ r.raw.length → r.raw.length ≤ Config.rawMax →
    ∃ k t, k ≤ r.raw.length + 2 + s.sinkReady.count false ∧ k ≤ Config.rawMax + 2 + s.sinkReady.count false ∧
      run k s = .next t ∧ t.phase = .idle ∧ t.sinkTrace = s.sinkTrace ++ [.write r.raw, .flush]

/-- R288, R203, U20: in phase EMIT with a sink that is never ready again the burst never ends: after any number of steps
nothing has changed but the readiness used up, and the same byte stays offered (R194). -/
def Obligations.StalledBurstStaysStuck : Prop :=
  ∀ s, s.phase = .emit → s.undisturbed = true → s.SinkStuck → ∀ k, ∃ t,
    run k s = .next t ∧ t = { s with sinkReady := s.sinkReady.drop k } ∧ t.phase = .emit ∧ t.snkByte = s.snkByte ∧
      t.snkLast = s.snkLast ∧ t.SinkStuck

/-- R156, R281: a raw request of no byte or of more than `RAW_MAX` bytes has no meaning, on the request port and in a
record, with a sink or without; nor has a raw list of FACADE.raw_burst. The records are log 1, the length before the
sink is log 20. -/
def Obligations.RawListsOutOfRangeAreRefused : Prop :=
  ∀ s (r : Request) rest, s.busy = false → r.op = 0b110#3 → (r.raw = [] ∨ Config.rawMax < r.raw.length) →
    (s.pending = .serial r :: rest → step s = .refused (.undecodable (.rawLength r.raw.length))) ∧
    (s.pending = .record (reqRecord r) :: rest → step s = .refused (.undecodable (.rawLength r.raw.length))) ∧
    (s.pending = .record ([0x07#8, 11#8] ++ r.raw) :: rest →
      step s = .refused (.undecodable (.rawLength r.raw.length)))
end

