-- ==== Sys2Proof/Laws/Words.lean ====
section
/-! SUPPORT. What the operand operations and the word encoder compute, said once: clamp, repetition count, the number of
a word, its fields, its frame, and the frames of a burst. -/

namespace Sys2Proof

/-! ### Code tables -/

@[simp] theorem ObjectType.ofCode_code (t : ObjectType) : ObjectType.ofCode t.code = some t := by cases t <;> rfl

@[simp] theorem CmdClass.ofCode_code (c : CmdClass) : CmdClass.ofCode c.code = c := by cases c <;> rfl

@[simp] theorem EngineAction.ofCode_code (a : EngineAction) : EngineAction.ofCode a.code = some a := by cases a <;> rfl

/-- A `req_type` code without a type is 5, 6 or 7 (R98). -/
theorem ObjectType.ofCode_eq_none {x : BitVec 3} : 5 ≤ x.toNat → ObjectType.ofCode x = none := by
  revert x; decide

namespace Machine

theorem code_toNat (c : CmdClass) : c.code.toNat = classNumber c := by cases c <;> rfl

theorem classNumber_lt (c : CmdClass) : classNumber c < 4 := by cases c <;> decide

theorem classNumber_ofCode (x : BitVec 2) : classNumber (CmdClass.ofCode x) = x.toNat := by revert x; decide

theorem classNumber_injective {c c' : CmdClass} : classNumber c = classNumber c' → c = c' := by
  cases c <;> cases c' <;> decide

/-! ### clamp -/

theorem clamp_zero (v m : Nat) : clamp v 0 m = min v m := by
  unfold clamp; split <;> [omega; (split <;> omega)]

theorem repetitions_eq (n : Nat) : repetitions n = max 1 (min n 30) := by
  unfold repetitions clamp repMin repMax; split <;> [omega; (split <;> omega)]

theorem repetitions_le (n : Nat) : repetitions n ≤ 30 := by rw [repetitions_eq]; omega

theorem repetitions_pos (n : Nat) : 0 < repetitions n := by rw [repetitions_eq]; omega

theorem rawLengthOk_iff (n : Nat) : rawLengthOk n = true ↔ 1 ≤ n ∧ n ≤ Config.rawMax := by simp [rawLengthOk]

/-! ### Words -/

theorem append_toNat {m n : Nat} (x : BitVec m) (y : BitVec n) : (x ++ y).toNat = x.toNat * 2 ^ n + y.toNat := by
  rw [BitVec.toNat_append, ← Nat.shiftLeft_add_eq_or_of_lt y.isLt, Nat.shiftLeft_eq]

theorem extract_toNat {n : Nat} (start len : Nat) (x : BitVec n) :
    (x.extractLsb' start len).toNat = x.toNat / 2 ^ start % 2 ^ len := by
  rw [BitVec.extractLsb'_toNat, Nat.shiftRight_eq_div_pow]

/-- The word of MAKE_WORD is the number of R120. -/
theorem makeWord_toNat (t : ObjectType) (a : Nat) (c : CmdClass) (d : Nat) :
    (makeWord t a c d).toNat = wordNumber t a c d := by
  have h := code_toNat c
  cases t <;>
    simp only [makeWord, append_toNat, mask, BitVec.toNat_ofNat, wordNumber, typeBase, typeAddressWidth, h] <;> omega

theorem makeWord_class (t : ObjectType) (a : Nat) (c : CmdClass) (d : Nat) :
    (makeWord t a c d).extractLsb' 5 2 = c.code := by
  have h := classNumber_lt c
  apply BitVec.eq_of_toNat_eq
  rw [extract_toNat, makeWord_toNat, code_toNat]
  cases t <;> simp only [wordNumber, typeBase, typeAddressWidth] <;> omega

theorem makeWord_data (t : ObjectType) (a : Nat) (c : CmdClass) (d : Nat) :
    (makeWord t a c d).extractLsb' 0 5 = BitVec.ofNat 5 d := by
  have h := classNumber_lt c
  apply BitVec.eq_of_toNat_eq
  rw [extract_toNat, makeWord_toNat, BitVec.toNat_ofNat]
  cases t <;> simp only [wordNumber, typeBase, typeAddressWidth] <;> omega

/-- Operands in range are recovered from the number of a word. -/
theorem wordNumber_injective {t t' : ObjectType} {a a' d d' : Nat} {c c' : CmdClass}
    (ha : a < 2 ^ typeAddressWidth t) (hd : d < 32) (ha' : a' < 2 ^ typeAddressWidth t') (hd' : d' < 32)
    (h : wordNumber t a c d = wordNumber t' a' c' d') : t = t' ∧ a = a' ∧ c = c' ∧ d = d' := by
  have hc := classNumber_lt c
  have hc' := classNumber_lt c'
  cases t <;> cases t' <;> simp [wordNumber, typeBase, typeAddressWidth] at * <;>
    first | omega | exact ⟨by omega, classNumber_injective (by omega), by omega⟩

theorem speedWord_eq (a v : Nat) : speedWord a v = makeWord .engine a .absoluteSpeed (min v 31) := by
  rw [speedWord, clamp_zero]; rfl

theorem actionWord_toNat (a d : Nat) : (actionWord a d).toNat = a % 128 * 128 + d % 32 := by
  rw [actionWord, makeWord_toNat]; simp [wordNumber, typeBase, typeAddressWidth, classNumber]

theorem speedWord_toNat (a v : Nat) : (speedWord a v).toNat = a % 128 * 128 + 0x60 + min v 31 := by
  rw [speedWord_eq, makeWord_toNat]; simp [wordNumber, typeBase, typeAddressWidth, classNumber]

/-! ### Frames and bursts -/

theorem frameBytes_eq (w : Word) : frameBytes w = frameNumbers w := by
  have hh : w.extractLsb' 8 8 = BitVec.ofNat 8 (w.toNat / 256) := by
    apply BitVec.eq_of_toNat_eq; rw [extract_toNat, BitVec.toNat_ofNat]; rfl
  have hl : w.extractLsb' 0 8 = BitVec.ofNat 8 (w.toNat % 256) := by
    apply BitVec.eq_of_toNat_eq; rw [extract_toNat, BitVec.toNat_ofNat]; simp
  simp only [frameBytes, frameNumbers, header, highByte, lowByte, hh, hl]

/-- The frame of the word two bytes make shows these bytes. -/
theorem frameBytes_append (h l : Byte) : frameBytes (h ++ l) = [0xFE#8, h, l] := by
  have hh : (h ++ l : Word).extractLsb' 8 8 = h := by
    apply BitVec.eq_of_toNat_eq; rw [extract_toNat, append_toNat]; have := l.isLt; have := h.isLt; omega
  have hl : (h ++ l : Word).extractLsb' 0 8 = l := by
    apply BitVec.eq_of_toNat_eq; rw [extract_toNat, append_toNat]; have := l.isLt; omega
  simp only [frameBytes, header, highByte, lowByte, hh, hl]

/-- The two bytes of a word put together are the word. -/
theorem bytes_append (w : Word) : (BitVec.ofNat 8 (w.toNat / 256) ++ BitVec.ofNat 8 (w.toNat % 256) : Word) = w := by
  apply BitVec.eq_of_toNat_eq
  rw [append_toNat, BitVec.toNat_ofNat, BitVec.toNat_ofNat]; have := w.isLt; omega

@[simp] theorem frameBytes_length (w : Word) : (frameBytes w).length = 3 := rfl

@[simp] theorem frameBytes_ne_nil (w : Word) : frameBytes w ≠ [] := by simp [frameBytes]

@[simp] theorem burstBytes_zero (w : Word) : burstBytes w 0 = [] := rfl

theorem burstBytes_succ (w : Word) (n : Nat) : burstBytes w (n + 1) = frameBytes w ++ burstBytes w n := by
  simp [burstBytes, rep, List.replicate_succ]

theorem burstBytes_one (w : Word) : burstBytes w 1 = frameBytes w := by simp [burstBytes_succ]

@[simp] theorem burstBytes_length (w : Word) (n : Nat) : (burstBytes w n).length = 3 * n := by
  simp [burstBytes, rep, Nat.mul_comm]

theorem burstBytes_ne_nil {w : Word} {n : Nat} (h : 0 < n) : burstBytes w n ≠ [] := by
  intro he; have := burstBytes_length w n; simp [he] at this; omega

/-- Every frame of a burst is the frame of its word (R93). -/
theorem burstBytes_frame (w : Word) {n k : Nat} (h : k < n) :
    ((burstBytes w n).drop (3 * k)).take 3 = frameBytes w := by
  induction k generalizing n with
  | zero =>
    obtain ⟨m, rfl⟩ : ∃ m, n = m + 1 := ⟨n - 1, by omega⟩
    simp [burstBytes_succ, frameBytes]
  | succ k ih =>
    obtain ⟨m, rfl⟩ : ∃ m, n = m + 1 := ⟨n - 1, by omega⟩
    rw [burstBytes_succ, show 3 * (k + 1) = (frameBytes w).length + 3 * k by rw [frameBytes_length]; omega,
      List.drop_length_add_append]
    exact ih (by omega)

/-- The byte of a burst at a place, by the frame it stands in and its place there (R93, R195). -/
theorem burstBytes_getElem? (w : Word) {n k : Nat} (h : k < 3 * n) :
    (burstBytes w n)[k]? = (frameBytes w)[k % 3]? := by
  induction n generalizing k with
  | zero => omega
  | succ n ih =>
    rw [burstBytes_succ]
    by_cases hk : k < 3
    · rw [List.getElem?_append_left (by simpa using hk), Nat.mod_eq_of_lt hk]
    · rw [List.getElem?_append_right (by simp; omega), frameBytes_length, ih (by omega)]
      congr 1; omega

end Machine

end Sys2Proof
end

