-- ==== Sys2Proof/Laws/Encoding.lean ====
section
/-! SUPPORT. The parts of a record and of a word that the decoder reads back, said once each. -/

namespace Sys2Proof

open Sys2Proof.Machine

theorem byte_ofNat_toNat {v : Nat} (h : fitsPort v = true) : (BitVec.ofNat 8 v).toNat = v := by
  simp [fitsPort] at h; simp; omega

/-- A request read from its bytes is the request. -/
theorem readRequest_bytes (r : Request) : readRequest r.bytes = .ok r := by
  have hop : (r.op.setWidth 8).setWidth 3 = r.op := by apply BitVec.eq_of_toNat_eq; simp
  have htype : (r.type.setWidth 8).setWidth 3 = r.type := by apply BitVec.eq_of_toNat_eq; simp
  have hcls : (r.cls.setWidth 8).setWidth 2 = r.cls := by apply BitVec.eq_of_toNat_eq; simp
  have hword : (r.word.extractLsb' 8 8 ++ r.word.extractLsb' 0 8 : Word) = r.word := by
    apply BitVec.eq_of_toNat_eq
    rw [append_toNat, extract_toNat, extract_toNat]; have := r.word.isLt; omega
  have h1 := r.op.isLt
  have h2 := r.type.isLt
  have h3 := r.cls.isLt
  simp only [Request.bytes, List.cons_append, List.nil_append, readRequest, hop, htype, hcls, hword]
  rw [if_pos]
  simp only [BitVec.toNat_setWidth]; omega

/-- A record of format REQ decodes to what its request does. -/
theorem decode_reqRecord (r : Request) : decode (reqRecord r) = decodeRequest r := by
  simp [decode, reqRecord, decodeReq, readRequest_bytes]

/-- The word of a word record is its number. -/
theorem decodeTwo_number (k : Word → Except DecodeError Instr) {n : Nat} (h : n < 65536) :
    decodeTwo k [BitVec.ofNat 8 (n / 256), BitVec.ofNat 8 n] = k (BitVec.ofNat 16 n) := by
  have : (BitVec.ofNat 8 (n / 256) ++ BitVec.ofNat 8 n : Word) = BitVec.ofNat 16 n := by
    apply BitVec.eq_of_toNat_eq
    rw [append_toNat]; simp only [BitVec.toNat_ofNat]; omega
  simp only [decodeTwo, this]

/-- The numeric formula of R120 on operands in range is the word MAKE_WORD packs. -/
theorem fieldsNumber_eq {t : ObjectType} {a d : Nat} {c : CmdClass}
    (ha : a < 2 ^ typeAddressWidth t) (hd : d < 32) :
    fieldsNumber (typeBase t) a c d = (makeWord t a c d).toNat := by
  rw [makeWord_toNat, fieldsNumber, wordNumber, code_toNat, Nat.mod_eq_of_lt ha, Nat.mod_eq_of_lt hd]

/-- The reader of words returns the operands MAKE_WORD packed (R85, R104). -/
theorem readWord_makeWord {t : ObjectType} {a d : Nat} {c : CmdClass}
    (ha : a < 2 ^ typeAddressWidth t) (hd : d < 32) : readWord (makeWord t a c d) = some ⟨t, a, c, d⟩ := by
  have hc := classNumber_lt c
  have hdata : (BitVec.ofNat 5 d).toNat = d := by simp; omega
  unfold readWord
  rw [makeWord_class, makeWord_data, CmdClass.ofCode_code, hdata]
  simp only [← BitVec.toNat_inj, extract_toNat, makeWord_toNat]
  cases t <;> simp [wordNumber, typeBase, typeAddressWidth] at * <;> split_ifs <;> (try simp) <;> omega

theorem makeWord_ne_halt (t : ObjectType) (a : Nat) (c : CmdClass) (d : Nat) : makeWord t a c d ≠ 0xFFFF#16 := by
  intro h
  have := congrArg BitVec.toNat h
  have hc := classNumber_lt c
  rw [makeWord_toNat] at this
  cases t <;> simp [wordNumber, typeBase, typeAddressWidth] at this <;> omega

end Sys2Proof
end

