-- ==== Sys2Proof/Laws/State.lean ====
section
/-! SUPPORT. One lemma per field per named update of State, each true by rfl, so that no later proof unfolds a record
update. -/

namespace Sys2Proof.Machine

variable (s : State)

/-! ### sinkWrite -/

@[simp] theorem State.sinkWrite_sinkEn (L : List Byte) : (s.sinkWrite L).sinkEn = s.sinkEn := rfl
@[simp] theorem State.sinkWrite_busy (L : List Byte) : (s.sinkWrite L).busy = s.busy := rfl
@[simp] theorem State.sinkWrite_raw (L : List Byte) : (s.sinkWrite L).raw = s.raw := rfl
@[simp] theorem State.sinkWrite_wordReg (L : List Byte) : (s.sinkWrite L).wordReg = s.wordReg := rfl
@[simp] theorem State.sinkWrite_repCnt (L : List Byte) : (s.sinkWrite L).repCnt = s.repCnt := rfl
@[simp] theorem State.sinkWrite_byteIdx (L : List Byte) : (s.sinkWrite L).byteIdx = s.byteIdx := rfl
@[simp] theorem State.sinkWrite_rawIdx (L : List Byte) : (s.sinkWrite L).rawIdx = s.rawIdx := rfl
@[simp] theorem State.sinkWrite_reqRaw (L : List Byte) : (s.sinkWrite L).reqRaw = s.reqRaw := rfl
@[simp] theorem State.sinkWrite_burst (L : List Byte) : (s.sinkWrite L).burst = s.burst := rfl
@[simp] theorem State.sinkWrite_sinkTrace (L : List Byte) : (s.sinkWrite L).sinkTrace = s.sinkTrace ++ [.write L] := rfl
@[simp] theorem State.sinkWrite_diagTrace (L : List Byte) : (s.sinkWrite L).diagTrace = s.diagTrace := rfl
@[simp] theorem State.sinkWrite_responses (L : List Byte) : (s.sinkWrite L).responses = s.responses := rfl
@[simp] theorem State.sinkWrite_speedResults (L : List Byte) : (s.sinkWrite L).speedResults = s.speedResults := rfl
@[simp] theorem State.sinkWrite_engines (L : List Byte) : (s.sinkWrite L).engines = s.engines := rfl
@[simp] theorem State.sinkWrite_pending (L : List Byte) : (s.sinkWrite L).pending = s.pending := rfl
@[simp] theorem State.sinkWrite_sinkReady (L : List Byte) : (s.sinkWrite L).sinkReady = s.sinkReady := rfl
@[simp] theorem State.sinkWrite_sinkTail (L : List Byte) : (s.sinkWrite L).sinkTail = s.sinkTail := rfl

/-! ### sinkFlush -/

@[simp] theorem State.sinkFlush_sinkEn : (s.sinkFlush).sinkEn = s.sinkEn := rfl
@[simp] theorem State.sinkFlush_busy : (s.sinkFlush).busy = s.busy := rfl
@[simp] theorem State.sinkFlush_raw : (s.sinkFlush).raw = s.raw := rfl
@[simp] theorem State.sinkFlush_wordReg : (s.sinkFlush).wordReg = s.wordReg := rfl
@[simp] theorem State.sinkFlush_repCnt : (s.sinkFlush).repCnt = s.repCnt := rfl
@[simp] theorem State.sinkFlush_byteIdx : (s.sinkFlush).byteIdx = s.byteIdx := rfl
@[simp] theorem State.sinkFlush_rawIdx : (s.sinkFlush).rawIdx = s.rawIdx := rfl
@[simp] theorem State.sinkFlush_reqRaw : (s.sinkFlush).reqRaw = s.reqRaw := rfl
@[simp] theorem State.sinkFlush_burst : (s.sinkFlush).burst = s.burst := rfl
@[simp] theorem State.sinkFlush_sinkTrace : (s.sinkFlush).sinkTrace = s.sinkTrace ++ [.flush] := rfl
@[simp] theorem State.sinkFlush_diagTrace : (s.sinkFlush).diagTrace = s.diagTrace := rfl
@[simp] theorem State.sinkFlush_responses : (s.sinkFlush).responses = s.responses := rfl
@[simp] theorem State.sinkFlush_speedResults : (s.sinkFlush).speedResults = s.speedResults := rfl
@[simp] theorem State.sinkFlush_engines : (s.sinkFlush).engines = s.engines := rfl
@[simp] theorem State.sinkFlush_pending : (s.sinkFlush).pending = s.pending := rfl
@[simp] theorem State.sinkFlush_sinkReady : (s.sinkFlush).sinkReady = s.sinkReady := rfl
@[simp] theorem State.sinkFlush_sinkTail : (s.sinkFlush).sinkTail = s.sinkTail := rfl

/-! ### diagnose -/

@[simp] theorem State.diagnose_sinkEn (d : Diagnostic) : (s.diagnose d).sinkEn = s.sinkEn := rfl
@[simp] theorem State.diagnose_busy (d : Diagnostic) : (s.diagnose d).busy = s.busy := rfl
@[simp] theorem State.diagnose_raw (d : Diagnostic) : (s.diagnose d).raw = s.raw := rfl
@[simp] theorem State.diagnose_wordReg (d : Diagnostic) : (s.diagnose d).wordReg = s.wordReg := rfl
@[simp] theorem State.diagnose_repCnt (d : Diagnostic) : (s.diagnose d).repCnt = s.repCnt := rfl
@[simp] theorem State.diagnose_byteIdx (d : Diagnostic) : (s.diagnose d).byteIdx = s.byteIdx := rfl
@[simp] theorem State.diagnose_rawIdx (d : Diagnostic) : (s.diagnose d).rawIdx = s.rawIdx := rfl
@[simp] theorem State.diagnose_reqRaw (d : Diagnostic) : (s.diagnose d).reqRaw = s.reqRaw := rfl
@[simp] theorem State.diagnose_burst (d : Diagnostic) : (s.diagnose d).burst = s.burst := rfl
@[simp] theorem State.diagnose_sinkTrace (d : Diagnostic) : (s.diagnose d).sinkTrace = s.sinkTrace := rfl
@[simp] theorem State.diagnose_diagTrace (d : Diagnostic) : (s.diagnose d).diagTrace = s.diagTrace ++ [d] := rfl
@[simp] theorem State.diagnose_responses (d : Diagnostic) : (s.diagnose d).responses = s.responses := rfl
@[simp] theorem State.diagnose_speedResults (d : Diagnostic) : (s.diagnose d).speedResults = s.speedResults := rfl
@[simp] theorem State.diagnose_engines (d : Diagnostic) : (s.diagnose d).engines = s.engines := rfl
@[simp] theorem State.diagnose_pending (d : Diagnostic) : (s.diagnose d).pending = s.pending := rfl
@[simp] theorem State.diagnose_sinkReady (d : Diagnostic) : (s.diagnose d).sinkReady = s.sinkReady := rfl
@[simp] theorem State.diagnose_sinkTail (d : Diagnostic) : (s.diagnose d).sinkTail = s.sinkTail := rfl

/-! ### respond -/

@[simp] theorem State.respond_sinkEn (st : Status) (w : Option Word) : (s.respond st w).sinkEn = s.sinkEn := rfl
@[simp] theorem State.respond_busy (st : Status) (w : Option Word) : (s.respond st w).busy = s.busy := rfl
@[simp] theorem State.respond_raw (st : Status) (w : Option Word) : (s.respond st w).raw = s.raw := rfl
@[simp] theorem State.respond_wordReg (st : Status) (w : Option Word) : (s.respond st w).wordReg = s.wordReg := rfl
@[simp] theorem State.respond_repCnt (st : Status) (w : Option Word) : (s.respond st w).repCnt = s.repCnt := rfl
@[simp] theorem State.respond_byteIdx (st : Status) (w : Option Word) : (s.respond st w).byteIdx = s.byteIdx := rfl
@[simp] theorem State.respond_rawIdx (st : Status) (w : Option Word) : (s.respond st w).rawIdx = s.rawIdx := rfl
@[simp] theorem State.respond_reqRaw (st : Status) (w : Option Word) : (s.respond st w).reqRaw = s.reqRaw := rfl
@[simp] theorem State.respond_burst (st : Status) (w : Option Word) : (s.respond st w).burst = s.burst := rfl
@[simp] theorem State.respond_sinkTrace (st : Status) (w : Option Word) : (s.respond st w).sinkTrace = s.sinkTrace := rfl
@[simp] theorem State.respond_diagTrace (st : Status) (w : Option Word) : (s.respond st w).diagTrace = s.diagTrace := rfl
@[simp] theorem State.respond_responses (st : Status) (w : Option Word) : (s.respond st w).responses = s.responses ++ [⟨st, w⟩] := rfl
@[simp] theorem State.respond_speedResults (st : Status) (w : Option Word) : (s.respond st w).speedResults = s.speedResults := rfl
@[simp] theorem State.respond_engines (st : Status) (w : Option Word) : (s.respond st w).engines = s.engines := rfl
@[simp] theorem State.respond_pending (st : Status) (w : Option Word) : (s.respond st w).pending = s.pending := rfl
@[simp] theorem State.respond_sinkReady (st : Status) (w : Option Word) : (s.respond st w).sinkReady = s.sinkReady := rfl
@[simp] theorem State.respond_sinkTail (st : Status) (w : Option Word) : (s.respond st w).sinkTail = s.sinkTail := rfl

/-! ### respondWord -/

@[simp] theorem State.respondWord_sinkEn (w : Word) : (s.respondWord w).sinkEn = s.sinkEn := rfl
@[simp] theorem State.respondWord_busy (w : Word) : (s.respondWord w).busy = s.busy := rfl
@[simp] theorem State.respondWord_raw (w : Word) : (s.respondWord w).raw = s.raw := rfl
@[simp] theorem State.respondWord_wordReg (w : Word) : (s.respondWord w).wordReg = s.wordReg := rfl
@[simp] theorem State.respondWord_repCnt (w : Word) : (s.respondWord w).repCnt = s.repCnt := rfl
@[simp] theorem State.respondWord_byteIdx (w : Word) : (s.respondWord w).byteIdx = s.byteIdx := rfl
@[simp] theorem State.respondWord_rawIdx (w : Word) : (s.respondWord w).rawIdx = s.rawIdx := rfl
@[simp] theorem State.respondWord_reqRaw (w : Word) : (s.respondWord w).reqRaw = s.reqRaw := rfl
@[simp] theorem State.respondWord_burst (w : Word) : (s.respondWord w).burst = s.burst := rfl
@[simp] theorem State.respondWord_sinkTrace (w : Word) : (s.respondWord w).sinkTrace = s.sinkTrace := rfl
@[simp] theorem State.respondWord_diagTrace (w : Word) : (s.respondWord w).diagTrace = s.diagTrace := rfl
@[simp] theorem State.respondWord_responses (w : Word) : (s.respondWord w).responses = s.responses ++ [⟨.ok, some w⟩] := rfl
@[simp] theorem State.respondWord_speedResults (w : Word) : (s.respondWord w).speedResults = s.speedResults := rfl
@[simp] theorem State.respondWord_engines (w : Word) : (s.respondWord w).engines = s.engines := rfl
@[simp] theorem State.respondWord_pending (w : Word) : (s.respondWord w).pending = s.pending := rfl
@[simp] theorem State.respondWord_sinkReady (w : Word) : (s.respondWord w).sinkReady = s.sinkReady := rfl
@[simp] theorem State.respondWord_sinkTail (w : Word) : (s.respondWord w).sinkTail = s.sinkTail := rfl

/-! ### configurationError -/

@[simp] theorem State.configurationError_sinkEn : (s.configurationError).sinkEn = s.sinkEn := rfl
@[simp] theorem State.configurationError_busy : (s.configurationError).busy = s.busy := rfl
@[simp] theorem State.configurationError_raw : (s.configurationError).raw = s.raw := rfl
@[simp] theorem State.configurationError_wordReg : (s.configurationError).wordReg = s.wordReg := rfl
@[simp] theorem State.configurationError_repCnt : (s.configurationError).repCnt = s.repCnt := rfl
@[simp] theorem State.configurationError_byteIdx : (s.configurationError).byteIdx = s.byteIdx := rfl
@[simp] theorem State.configurationError_rawIdx : (s.configurationError).rawIdx = s.rawIdx := rfl
@[simp] theorem State.configurationError_reqRaw : (s.configurationError).reqRaw = s.reqRaw := rfl
@[simp] theorem State.configurationError_burst : (s.configurationError).burst = s.burst := rfl
@[simp] theorem State.configurationError_sinkTrace : (s.configurationError).sinkTrace = s.sinkTrace := rfl
@[simp] theorem State.configurationError_diagTrace : (s.configurationError).diagTrace = s.diagTrace ++ [.noSink] := rfl
@[simp] theorem State.configurationError_responses : (s.configurationError).responses = s.responses ++ [⟨.unavailable, none⟩] := rfl
@[simp] theorem State.configurationError_speedResults : (s.configurationError).speedResults = s.speedResults := rfl
@[simp] theorem State.configurationError_engines : (s.configurationError).engines = s.engines := rfl
@[simp] theorem State.configurationError_pending : (s.configurationError).pending = s.pending := rfl
@[simp] theorem State.configurationError_sinkReady : (s.configurationError).sinkReady = s.sinkReady := rfl
@[simp] theorem State.configurationError_sinkTail : (s.configurationError).sinkTail = s.sinkTail := rfl

/-! ### attachSink -/

@[simp] theorem State.attachSink_sinkEn : (s.attachSink).sinkEn = true := rfl
@[simp] theorem State.attachSink_busy : (s.attachSink).busy = s.busy := rfl
@[simp] theorem State.attachSink_raw : (s.attachSink).raw = s.raw := rfl
@[simp] theorem State.attachSink_wordReg : (s.attachSink).wordReg = s.wordReg := rfl
@[simp] theorem State.attachSink_repCnt : (s.attachSink).repCnt = s.repCnt := rfl
@[simp] theorem State.attachSink_byteIdx : (s.attachSink).byteIdx = s.byteIdx := rfl
@[simp] theorem State.attachSink_rawIdx : (s.attachSink).rawIdx = s.rawIdx := rfl
@[simp] theorem State.attachSink_reqRaw : (s.attachSink).reqRaw = s.reqRaw := rfl
@[simp] theorem State.attachSink_burst : (s.attachSink).burst = s.burst := rfl
@[simp] theorem State.attachSink_sinkTrace : (s.attachSink).sinkTrace = s.sinkTrace := rfl
@[simp] theorem State.attachSink_diagTrace : (s.attachSink).diagTrace = s.diagTrace := rfl
@[simp] theorem State.attachSink_responses : (s.attachSink).responses = s.responses ++ [⟨.ok, none⟩] := rfl
@[simp] theorem State.attachSink_speedResults : (s.attachSink).speedResults = s.speedResults := rfl
@[simp] theorem State.attachSink_engines : (s.attachSink).engines = s.engines := rfl
@[simp] theorem State.attachSink_pending : (s.attachSink).pending = s.pending := rfl
@[simp] theorem State.attachSink_sinkReady : (s.attachSink).sinkReady = s.sinkReady := rfl
@[simp] theorem State.attachSink_sinkTail : (s.attachSink).sinkTail = s.sinkTail := rfl

/-! ### putEngine -/

@[simp] theorem State.putEngine_sinkEn (e : Nat) (E : Engine) : (s.putEngine e E).sinkEn = s.sinkEn := rfl
@[simp] theorem State.putEngine_busy (e : Nat) (E : Engine) : (s.putEngine e E).busy = s.busy := rfl
@[simp] theorem State.putEngine_raw (e : Nat) (E : Engine) : (s.putEngine e E).raw = s.raw := rfl
@[simp] theorem State.putEngine_wordReg (e : Nat) (E : Engine) : (s.putEngine e E).wordReg = s.wordReg := rfl
@[simp] theorem State.putEngine_repCnt (e : Nat) (E : Engine) : (s.putEngine e E).repCnt = s.repCnt := rfl
@[simp] theorem State.putEngine_byteIdx (e : Nat) (E : Engine) : (s.putEngine e E).byteIdx = s.byteIdx := rfl
@[simp] theorem State.putEngine_rawIdx (e : Nat) (E : Engine) : (s.putEngine e E).rawIdx = s.rawIdx := rfl
@[simp] theorem State.putEngine_reqRaw (e : Nat) (E : Engine) : (s.putEngine e E).reqRaw = s.reqRaw := rfl
@[simp] theorem State.putEngine_burst (e : Nat) (E : Engine) : (s.putEngine e E).burst = s.burst := rfl
@[simp] theorem State.putEngine_sinkTrace (e : Nat) (E : Engine) : (s.putEngine e E).sinkTrace = s.sinkTrace := rfl
@[simp] theorem State.putEngine_diagTrace (e : Nat) (E : Engine) : (s.putEngine e E).diagTrace = s.diagTrace := rfl
@[simp] theorem State.putEngine_responses (e : Nat) (E : Engine) : (s.putEngine e E).responses = s.responses := rfl
@[simp] theorem State.putEngine_speedResults (e : Nat) (E : Engine) : (s.putEngine e E).speedResults = s.speedResults := rfl
@[simp] theorem State.putEngine_engines (e : Nat) (E : Engine) : (s.putEngine e E).engines = s.engines.set e E := rfl
@[simp] theorem State.putEngine_pending (e : Nat) (E : Engine) : (s.putEngine e E).pending = s.pending := rfl
@[simp] theorem State.putEngine_sinkReady (e : Nat) (E : Engine) : (s.putEngine e E).sinkReady = s.sinkReady := rfl
@[simp] theorem State.putEngine_sinkTail (e : Nat) (E : Engine) : (s.putEngine e E).sinkTail = s.sinkTail := rfl

/-! ### acceptFramed -/

@[simp] theorem State.acceptFramed_sinkEn (w : Word) (n : Nat) : (s.acceptFramed w n).sinkEn = s.sinkEn := rfl
@[simp] theorem State.acceptFramed_busy (w : Word) (n : Nat) : (s.acceptFramed w n).busy = true := rfl
@[simp] theorem State.acceptFramed_raw (w : Word) (n : Nat) : (s.acceptFramed w n).raw = false := rfl
@[simp] theorem State.acceptFramed_wordReg (w : Word) (n : Nat) : (s.acceptFramed w n).wordReg = w := rfl
@[simp] theorem State.acceptFramed_repCnt (w : Word) (n : Nat) : (s.acceptFramed w n).repCnt = BitVec.ofNat 5 n := rfl
@[simp] theorem State.acceptFramed_byteIdx (w : Word) (n : Nat) : (s.acceptFramed w n).byteIdx = 0#2 := rfl
@[simp] theorem State.acceptFramed_rawIdx (w : Word) (n : Nat) : (s.acceptFramed w n).rawIdx = s.rawIdx := rfl
@[simp] theorem State.acceptFramed_reqRaw (w : Word) (n : Nat) : (s.acceptFramed w n).reqRaw = s.reqRaw := rfl
@[simp] theorem State.acceptFramed_burst (w : Word) (n : Nat) : (s.acceptFramed w n).burst = s.burst := rfl
@[simp] theorem State.acceptFramed_sinkTrace (w : Word) (n : Nat) : (s.acceptFramed w n).sinkTrace = s.sinkTrace := rfl
@[simp] theorem State.acceptFramed_diagTrace (w : Word) (n : Nat) : (s.acceptFramed w n).diagTrace = s.diagTrace := rfl
@[simp] theorem State.acceptFramed_responses (w : Word) (n : Nat) : (s.acceptFramed w n).responses = s.responses := rfl
@[simp] theorem State.acceptFramed_speedResults (w : Word) (n : Nat) : (s.acceptFramed w n).speedResults = s.speedResults := rfl
@[simp] theorem State.acceptFramed_engines (w : Word) (n : Nat) : (s.acceptFramed w n).engines = s.engines := rfl
@[simp] theorem State.acceptFramed_pending (w : Word) (n : Nat) : (s.acceptFramed w n).pending = s.pending := rfl
@[simp] theorem State.acceptFramed_sinkReady (w : Word) (n : Nat) : (s.acceptFramed w n).sinkReady = s.sinkReady := rfl
@[simp] theorem State.acceptFramed_sinkTail (w : Word) (n : Nat) : (s.acceptFramed w n).sinkTail = s.sinkTail := rfl

/-! ### acceptRaw -/

@[simp] theorem State.acceptRaw_sinkEn (L : List Byte) : (s.acceptRaw L).sinkEn = s.sinkEn := rfl
@[simp] theorem State.acceptRaw_busy (L : List Byte) : (s.acceptRaw L).busy = true := rfl
@[simp] theorem State.acceptRaw_raw (L : List Byte) : (s.acceptRaw L).raw = true := rfl
@[simp] theorem State.acceptRaw_wordReg (L : List Byte) : (s.acceptRaw L).wordReg = s.wordReg := rfl
@[simp] theorem State.acceptRaw_repCnt (L : List Byte) : (s.acceptRaw L).repCnt = s.repCnt := rfl
@[simp] theorem State.acceptRaw_byteIdx (L : List Byte) : (s.acceptRaw L).byteIdx = s.byteIdx := rfl
@[simp] theorem State.acceptRaw_rawIdx (L : List Byte) : (s.acceptRaw L).rawIdx = 0 := rfl
@[simp] theorem State.acceptRaw_reqRaw (L : List Byte) : (s.acceptRaw L).reqRaw = L := rfl
@[simp] theorem State.acceptRaw_burst (L : List Byte) : (s.acceptRaw L).burst = s.burst := rfl
@[simp] theorem State.acceptRaw_sinkTrace (L : List Byte) : (s.acceptRaw L).sinkTrace = s.sinkTrace := rfl
@[simp] theorem State.acceptRaw_diagTrace (L : List Byte) : (s.acceptRaw L).diagTrace = s.diagTrace := rfl
@[simp] theorem State.acceptRaw_responses (L : List Byte) : (s.acceptRaw L).responses = s.responses := rfl
@[simp] theorem State.acceptRaw_speedResults (L : List Byte) : (s.acceptRaw L).speedResults = s.speedResults := rfl
@[simp] theorem State.acceptRaw_engines (L : List Byte) : (s.acceptRaw L).engines = s.engines := rfl
@[simp] theorem State.acceptRaw_pending (L : List Byte) : (s.acceptRaw L).pending = s.pending := rfl
@[simp] theorem State.acceptRaw_sinkReady (L : List Byte) : (s.acceptRaw L).sinkReady = s.sinkReady := rfl
@[simp] theorem State.acceptRaw_sinkTail (L : List Byte) : (s.acceptRaw L).sinkTail = s.sinkTail := rfl

/-! ### transmit -/

/-- With a sink attached: one write of the whole list, the flush if asked for, status OK (R150). -/
theorem State.transmit_attached (L : List Byte) (fl : Bool) (h : s.sinkEn = true) :
    s.transmit L fl =
      { s with
        sinkTrace := s.sinkTrace ++ (.write L :: if fl then [.flush] else [])
        responses := s.responses ++ [⟨.ok, none⟩] } := by
  cases fl <;> simp [State.transmit, h, State.sinkWrite, State.sinkFlush, State.respond, transmitStatus]

/-- Without one: one diagnostic, status UNAVAILABLE, nothing else (R150, R272). -/
theorem State.transmit_unattached (L : List Byte) (fl : Bool) (h : s.sinkEn = false) :
    s.transmit L fl =
      { s with
        diagTrace := s.diagTrace ++ [.noSink]
        responses := s.responses ++ [⟨.unavailable, none⟩] } := by
  simp [State.transmit, h, State.configurationError, State.diagnose, State.respond, transmitStatus]

@[simp] theorem State.transmit_sinkEn (L : List Byte) (fl : Bool) : (s.transmit L fl).sinkEn = s.sinkEn := by
  cases h : s.sinkEn <;> simp [State.transmit_attached, State.transmit_unattached, h]
@[simp] theorem State.transmit_busy (L : List Byte) (fl : Bool) : (s.transmit L fl).busy = s.busy := by
  cases h : s.sinkEn <;> simp [State.transmit_attached, State.transmit_unattached, h]
@[simp] theorem State.transmit_raw (L : List Byte) (fl : Bool) : (s.transmit L fl).raw = s.raw := by
  cases h : s.sinkEn <;> simp [State.transmit_attached, State.transmit_unattached, h]
@[simp] theorem State.transmit_wordReg (L : List Byte) (fl : Bool) : (s.transmit L fl).wordReg = s.wordReg := by
  cases h : s.sinkEn <;> simp [State.transmit_attached, State.transmit_unattached, h]
@[simp] theorem State.transmit_repCnt (L : List Byte) (fl : Bool) : (s.transmit L fl).repCnt = s.repCnt := by
  cases h : s.sinkEn <;> simp [State.transmit_attached, State.transmit_unattached, h]
@[simp] theorem State.transmit_byteIdx (L : List Byte) (fl : Bool) : (s.transmit L fl).byteIdx = s.byteIdx := by
  cases h : s.sinkEn <;> simp [State.transmit_attached, State.transmit_unattached, h]
@[simp] theorem State.transmit_rawIdx (L : List Byte) (fl : Bool) : (s.transmit L fl).rawIdx = s.rawIdx := by
  cases h : s.sinkEn <;> simp [State.transmit_attached, State.transmit_unattached, h]
@[simp] theorem State.transmit_reqRaw (L : List Byte) (fl : Bool) : (s.transmit L fl).reqRaw = s.reqRaw := by
  cases h : s.sinkEn <;> simp [State.transmit_attached, State.transmit_unattached, h]
@[simp] theorem State.transmit_burst (L : List Byte) (fl : Bool) : (s.transmit L fl).burst = s.burst := by
  cases h : s.sinkEn <;> simp [State.transmit_attached, State.transmit_unattached, h]
@[simp] theorem State.transmit_speedResults (L : List Byte) (fl : Bool) : (s.transmit L fl).speedResults = s.speedResults := by
  cases h : s.sinkEn <;> simp [State.transmit_attached, State.transmit_unattached, h]
@[simp] theorem State.transmit_engines (L : List Byte) (fl : Bool) : (s.transmit L fl).engines = s.engines := by
  cases h : s.sinkEn <;> simp [State.transmit_attached, State.transmit_unattached, h]
@[simp] theorem State.transmit_pending (L : List Byte) (fl : Bool) : (s.transmit L fl).pending = s.pending := by
  cases h : s.sinkEn <;> simp [State.transmit_attached, State.transmit_unattached, h]
@[simp] theorem State.transmit_sinkReady (L : List Byte) (fl : Bool) : (s.transmit L fl).sinkReady = s.sinkReady := by
  cases h : s.sinkEn <;> simp [State.transmit_attached, State.transmit_unattached, h]
@[simp] theorem State.transmit_sinkTail (L : List Byte) (fl : Bool) : (s.transmit L fl).sinkTail = s.sinkTail := by
  cases h : s.sinkEn <;> simp [State.transmit_attached, State.transmit_unattached, h]

end Sys2Proof.Machine
end

