-- ==== Sys2Proof/Laws/Exec.lean ====
section
/-! SUPPORT. What an instruction and a caller-side call can do, said once: if it answers next, then one of the listed
cases. Later proofs cite these and do not unfold a meaning. -/

namespace Sys2Proof.Machine

/-! ### The states after, and the operations that give them -/

@[simp] theorem State.answered_sinkEn (s : State) (w : Word) : (s.answered w).sinkEn = s.sinkEn := rfl
@[simp] theorem State.answered_engines (s : State) (w : Word) : (s.answered w).engines = s.engines := rfl
@[simp] theorem State.answered_sinkTrace (s : State) (w : Word) : (s.answered w).sinkTrace = s.sinkTrace := rfl
@[simp] theorem State.answered_diagTrace (s : State) (w : Word) : (s.answered w).diagTrace = s.diagTrace := rfl
@[simp] theorem State.answered_responses (s : State) (w : Word) :
    (s.answered w).responses = s.responses ++ [⟨.ok, some w⟩] := rfl
@[simp] theorem State.sent_sinkEn (s : State) (bytes : List Byte) : (s.sent bytes).sinkEn = s.sinkEn := rfl
@[simp] theorem State.sent_sinkTrace (s : State) (bytes : List Byte) :
    (s.sent bytes).sinkTrace = s.sinkTrace ++ [.write bytes, .flush] := rfl
@[simp] theorem State.unsent_sinkEn (s : State) : s.unsent.sinkEn = s.sinkEn := rfl
@[simp] theorem State.unsent_engines (s : State) : s.unsent.engines = s.engines := rfl
@[simp] theorem State.unsent_sinkTrace (s : State) : s.unsent.sinkTrace = s.sinkTrace := rfl
@[simp] theorem State.unsent_diagTrace (s : State) : s.unsent.diagTrace = s.diagTrace ++ [.noSink] := rfl

theorem State.respondWord_eq (s : State) (w : Word) : s.respondWord w = s.answered w := rfl

theorem State.configurationError_eq (s : State) : s.configurationError = s.unsent := rfl

theorem State.transmit_sent {s : State} (bytes : List Byte) (h : s.sinkEn = true) :
    s.transmit bytes true = s.sent bytes := by
  simp [State.transmit_attached, h, State.sent]

theorem State.transmit_unsent {s : State} (bytes : List Byte) (flush : Bool) (h : s.sinkEn = false) :
    s.transmit bytes flush = s.unsent := by
  simp [State.transmit_unattached, h, State.unsent]

theorem State.updateEngine_cases (s : State) (e : Nat) (E : Engine) :
    s.updateEngine e E = s ∨ s.updateEngine e E = s.putEngine e E := by
  unfold State.updateEngine; split <;> simp

/-! ### Growing traces (R26) -/

theorem State.Extends.refl (s : State) : s.Extends s := ⟨List.prefix_rfl, List.prefix_rfl, List.prefix_rfl⟩

theorem State.Extends.trans {s t u : State} (h : t.Extends s) (h' : u.Extends t) : u.Extends s :=
  ⟨h.1.trans h'.1, h.2.1.trans h'.2.1, h.2.2.trans h'.2.2⟩

theorem State.answered_extends (s : State) (w : Word) : (s.answered w).Extends s := by
  simp [State.Extends]

theorem State.transmit_extends (s : State) (bytes : List Byte) (flush : Bool) :
    (s.transmit bytes flush).Extends s := by
  cases h : s.sinkEn <;> simp [State.transmit_attached, State.transmit_unattached, h, State.Extends]

/-! ### Instructions without an Engine entity -/

/-- A transmit operation is one `transmit` of a non-empty list that does not depend on the state (R150). -/
theorem exec_transmits {i : Instr} (h : transmits i = true) (hr : rawFits i = true) :
    ∃ bytes, bytes ≠ [] ∧ ∀ s, exec i s = .next (s.transmit bytes true) := by
  have raw : ∀ {bytes : List Byte}, rawLengthOk bytes.length = true → bytes ≠ [] ∧
      ∀ s : State, s.rawBurst bytes = .next (s.transmit bytes true) := by
    intro bytes hb
    refine ⟨?_, fun s => by simp [State.rawBurst, hb, State.sendRaw, rawFlush]⟩
    rintro rfl; simp [rawLengthOk_iff] at hb
  cases i <;> simp [transmits, isCodec, attaches, entity] at h
  case sendFrame w => exact ⟨frameBytes w, by simp, fun _ => rfl⟩
  case sendFrameRepeated w n => exact ⟨_, burstBytes_ne_nil (repetitions_pos n), fun _ => rfl⟩
  case sendRawBytes bytes => exact ⟨bytes, raw (by simpa [rawFits, rawList] using hr)⟩
  case systemHalt => exact ⟨_, burstBytes_ne_nil (w := haltWord) (n := haltReps) (by decide), fun _ => rfl⟩
  case haltWord => exact ⟨_, burstBytes_ne_nil (w := haltWord) (n := haltReps) (by decide), fun _ => rfl⟩
  case frame high low => exact ⟨frameBytes (high ++ low), by simp, fun _ => rfl⟩
  case facadeSystemHalt => exact ⟨_, burstBytes_ne_nil (w := haltWord) (n := haltReps) (by decide), fun _ => rfl⟩
  case facadeRawBurst bytes => exact ⟨bytes, raw (by simpa [rawFits, rawList] using hr)⟩

/-- A raw list of a length outside 1 to `RAW_MAX` is refused in every state (R156, R281). -/
theorem exec_rawUnfit {i : Instr} (h : rawFits i = false) : ∃ r, ∀ s, exec i s = .refused r := by
  cases i <;> simp [rawFits, rawList] at h
  case sendRawBytes bytes => exact ⟨.rawLength bytes.length, fun s => by simp [exec, execSendRawBytes, State.rawBurst, h]⟩
  case facadeRawBurst bytes => exact ⟨.rawLength bytes.length, fun s => by simp [exec, execFacadeRawBurst, State.rawBurst, h]⟩

/-- What an instruction without an Engine entity does, in every state. -/
theorem exec_withoutEntity {i : Instr} (h : entity i = none) :
    (rawFits i = true ∧ attaches i = false ∧ ∃ w, ∀ s, exec i s = .next (s.answered w)) ∨
    (rawFits i = true ∧ attaches i = true ∧ ∀ s, exec i s = .next s.attachSink) ∨
    (rawFits i = true ∧ attaches i = false ∧ ∃ bytes, bytes ≠ [] ∧ ∀ s, exec i s = .next (s.transmit bytes true)) ∨
    (rawFits i = false ∧ ∃ r, ∀ s, exec i s = .refused r) := by
  cases hr : rawFits i
  · exact .inr (.inr (.inr ⟨rfl, exec_rawUnfit hr⟩))
  cases ht : transmits i
  · cases i <;> first
      | exact .inl ⟨rfl, rfl, _, fun _ => rfl⟩
      | exact .inr (.inl ⟨rfl, rfl, fun _ => rfl⟩)
      | simp_all [transmits, isCodec, attaches, entity]
  · have ha : attaches i = false := by simp [transmits] at ht; exact ht.1.2
    exact .inr (.inr (.inl ⟨rfl, ha, exec_transmits ht hr⟩))

/-! ### Facade rows on an Engine entity -/

/-- A facade action, in every state whose entities are `engines`. -/
theorem State.facadeAction_cases (engines : List Engine) (e : Nat) (act : EngineAction) (send : Word → State → State) :
    (∃ r, ∀ s : State, s.engines = engines → s.facadeAction e act send = .refused r) ∨
    (∃ E a, engines[e]? = some E ∧ E.address = some a ∧ ∀ s : State, s.engines = engines →
      s.facadeAction e act send =
        .next (send (actionWord a.toNat act.code.toNat) (s.answered (actionWord a.toNat act.code.toNat)))) := by
  unfold State.facadeAction State.withEngine withField
  cases hE : engines[e]? with
  | none => exact .inl ⟨.noSuchEngine e, fun s hs => by simp [hs, hE]⟩
  | some E =>
    cases ha : E.address with
    | none => exact .inl ⟨.engineFieldUnset .address, fun s hs => by simp [hs, hE, ha]⟩
    | some a => exact .inr ⟨E, a, rfl, ha, fun s hs => by simp [hs, hE, ha, State.respondWord_eq]⟩

/-- A direction action. -/
theorem State.facadeDirection_cases (engines : List Engine) (e : Nat) (dir : Direction) (act : EngineAction) :
    (∃ r, ∀ s : State, s.engines = engines → s.facadeDirection e dir act = .refused r) ∨
    (∃ E a, engines[e]? = some E ∧ E.address = some a ∧ ∀ s : State, s.engines = engines →
      s.facadeDirection e dir act =
        .next (((s.answered (actionWord a.toNat act.code.toNat)).transmit
          (frameBytes (actionWord a.toNat act.code.toNat)) true).updateEngine e { E with direction := some dir })) := by
  unfold State.facadeDirection State.facadeAction State.withEngine withField
  cases hE : engines[e]? with
  | none => exact .inl ⟨.noSuchEngine e, fun s hs => by simp [hs, hE]⟩
  | some E =>
    cases ha : E.address with
    | none => exact .inl ⟨.engineFieldUnset .address, fun s hs => by simp [hs, hE, ha]⟩
    | some a => exact .inr ⟨E, a, rfl, ha, fun s hs => by simp [hs, hE, ha]; rfl⟩

/-- `set_speed`. -/
theorem execFacadeSetSpeed_cases (engines : List Engine) (e v : Nat) :
    (∃ r, ∀ s : State, s.engines = engines → execFacadeSetSpeed e v s = .refused r) ∨
    (∃ E a m, engines[e]? = some E ∧ E.address = some a ∧ E.maxSpeed = some m ∧ ∀ s : State, s.engines = engines →
      execFacadeSetSpeed e v s =
        .next (((s.answered (speedWord a.toNat (min v m.toNat))).transmit
          (frameBytes (speedWord a.toNat (min v m.toNat))) true).updateEngine e
            { E with currentSpeed := some (BitVec.ofNat 5 (min v m.toNat)) })) := by
  simp only [execFacadeSetSpeed, State.withEngine, withField]
  cases hE : engines[e]? with
  | none => exact .inl ⟨.noSuchEngine e, fun s hs => by simp [hs, hE]⟩
  | some E =>
    cases hm : E.maxSpeed with
    | none => exact .inl ⟨.engineFieldUnset .maxSpeed, fun s hs => by simp [hs, hE, hm]⟩
    | some m =>
      cases ha : E.address with
      | none => exact .inl ⟨.engineFieldUnset .address, fun s hs => by simp [hs, hE, hm, ha]⟩
      | some a => exact .inr ⟨E, a, m, rfl, ha, hm, fun s hs => by simp [hs, hE, hm, ha, clamp_zero]; rfl⟩

/-- What a facade row does to its entity: nothing, or a new entity that keeps the address and the maximum and stays
within it (R225). -/
def keepsEngine (E F : Engine) : Prop :=
  F.address = E.address ∧ F.maxSpeed = E.maxSpeed ∧ (E.speedOk = true → F.speedOk = true)

/-- The shape of a facade row on the entity `e`, in every state whose entities are `engines`: refused, or one codec
response, one transmit of a non-empty list, and at most an update of that entity. -/
def entityRow (i : Instr) (e : Nat) (engines : List Engine) : Prop :=
  (∃ r, ∀ s : State, s.engines = engines → exec i s = .refused r) ∨
  (∃ E w bytes, engines[e]? = some E ∧ bytes ≠ [] ∧
    ((∀ s : State, s.engines = engines → exec i s = .next ((s.answered w).transmit bytes true)) ∨
      ∃ F, keepsEngine E F ∧ ∀ s : State, s.engines = engines →
        exec i s = .next (((s.answered w).transmit bytes true).updateEngine e F)))

/-- Every facade row on an entity has that shape. -/
theorem exec_onEntity {i : Instr} {e : Nat} (h : entity i = some e) (engines : List Engine) :
    entityRow i e engines := by
  have action : ∀ act send, (∀ w, ∃ bytes, bytes ≠ [] ∧ ∀ s : State, send w s = s.transmit bytes true) →
      (∀ s, exec i s = s.facadeAction e act send) → entityRow i e engines := by
    intro act send hsend he
    rcases State.facadeAction_cases engines e act send with ⟨r, hr⟩ | ⟨E, a, hE, ha, hx⟩
    · exact .inl ⟨r, fun s hs => by rw [he, hr s hs]⟩
    · obtain ⟨bytes, hb, hs⟩ := hsend (actionWord a.toNat act.code.toNat)
      exact .inr ⟨E, _, bytes, hE, hb, .inl fun s hs' => by rw [he, hx s hs', hs]⟩
  have shot : ∀ w, ∃ bytes, bytes ≠ [] ∧ ∀ s : State, singleShot w s = s.transmit bytes true :=
    fun w => ⟨frameBytes w, by simp, fun _ => rfl⟩
  have thirty : ∀ w, ∃ bytes, bytes ≠ [] ∧ ∀ s : State, repeatedPath w s = s.transmit bytes true :=
    fun w => ⟨_, burstBytes_ne_nil (repetitions_pos hornBellReps), fun _ => rfl⟩
  have dir : ∀ d act, (∀ s, exec i s = s.facadeDirection e d act) → entityRow i e engines := by
    intro d act he
    rcases State.facadeDirection_cases engines e d act with ⟨r, hr⟩ | ⟨E, a, hE, ha, hx⟩
    · exact .inl ⟨r, fun s hs => by rw [he, hr s hs]⟩
    · exact .inr ⟨E, _, frameBytes (actionWord a.toNat act.code.toNat), hE, by simp,
        .inr ⟨{ E with direction := some d }, ⟨rfl, rfl, fun h => by simpa [Engine.speedOk] using h⟩,
          fun s hs => by rw [he, hx s hs]⟩⟩
  cases i <;> simp [entity] at h <;> subst h
  case facadeSetSpeed e v =>
    rcases execFacadeSetSpeed_cases engines e v with hr | ⟨E, a, m, hE, ha, hm, hx⟩
    · exact .inl hr
    · refine .inr ⟨E, _, frameBytes (speedWord a.toNat (min v m.toNat)), hE, by simp,
        .inr ⟨{ E with currentSpeed := some (BitVec.ofNat 5 (min v m.toNat)) }, ⟨rfl, rfl, fun _ => ?_⟩, hx⟩⟩
      have := m.isLt
      simp only [Engine.speedOk, hm, BitVec.toNat_ofNat]
      rw [Nat.mod_eq_of_lt (by omega)]; simp
  case facadeSetDirectionForward => exact dir .forward .forward fun _ => rfl
  case facadeSetDirectionReverse => exact dir .reverse .reverse fun _ => rfl
  case facadeOpenFrontCoupler => exact action .frontCoupler _ shot fun _ => rfl
  case facadeOpenRearCoupler => exact action .rearCoupler _ shot fun _ => rfl
  case facadeBoost => exact action .boost _ shot fun _ => rfl
  case facadeBrake => exact action .brake _ shot fun _ => rfl
  case facadeBlowHorn => exact action .horn1 _ thirty fun _ => rfl
  case facadeRingBell => exact action .bell _ thirty fun _ => rfl

/-! ### All instructions, all calls -/

/-- What an instruction can do, if it answers a next state. -/
theorem exec_cases {i : Instr} {s t : State} (h : exec i s = .next t) :
    (∃ w, t = s.answered w) ∨
    (attaches i = true ∧ t = s.attachSink) ∨
    (∃ bytes, bytes ≠ [] ∧ t = s.transmit bytes true) ∨
    (∃ e E w bytes, entity i = some e ∧ s.engines[e]? = some E ∧ bytes ≠ [] ∧
      (t = (s.answered w).transmit bytes true ∨
        ∃ F, keepsEngine E F ∧ t = ((s.answered w).transmit bytes true).putEngine e F)) := by
  cases he : entity i with
  | none =>
    rcases exec_withoutEntity he with ⟨-, -, w, hx⟩ | ⟨-, ha, hx⟩ | ⟨-, -, bytes, hb, hx⟩ | ⟨-, r, hx⟩ <;>
      rw [hx] at h <;> cases h
    · exact .inl ⟨w, rfl⟩
    · exact .inr (.inl ⟨ha, rfl⟩)
    · exact .inr (.inr (.inl ⟨bytes, hb, rfl⟩))
  | some e =>
    rcases exec_onEntity he s.engines with ⟨r, hr⟩ | ⟨E, w, bytes, hE, hb, hx | ⟨F, hF, hx⟩⟩
    · rw [hr s rfl] at h; cases h
    · rw [hx s rfl] at h; cases h
      exact .inr (.inr (.inr ⟨e, E, w, bytes, rfl, hE, hb, .inl rfl⟩))
    · rw [hx s rfl] at h; cases h
      refine .inr (.inr (.inr ⟨e, E, w, bytes, rfl, hE, hb, ?_⟩))
      rcases State.updateEngine_cases ((s.answered w).transmit bytes true) e F with h | h <;> rw [h]
      · exact .inl rfl
      · exact .inr ⟨F, hF, rfl⟩

theorem attaches_of_entity {i : Instr} {e : Nat} (h : entity i = some e) : attaches i = false := by
  cases i <;> simp_all [entity, attaches]

/-- What a caller-side call without a row can do, if it answers a next state: change entities and keep every speed
within its maximum, record a result, or send the test pattern and the horn burst. -/
theorem execCall_cases {c : Call} {s t : State} (h : execCall c s = .next t) :
    (∃ engines : List Engine, t = { s with engines := engines } ∧
      ((∀ E ∈ s.engines, E.speedOk = true) → ∀ E ∈ engines, E.speedOk = true)) ∨
    (∃ v, t = { s with speedResults := s.speedResults ++ [v] }) ∨
    (∃ w, t = ((s.transmit testPatternBytes true).answered w).transmit (burstBytes w 30) true) := by
  cases c with
  | createEngine =>
    cases h
    refine .inl ⟨_, rfl, fun hs E hE => ?_⟩
    simp only [List.mem_append, List.mem_singleton] at hE
    rcases hE with hE | rfl
    · exact hs E hE
    · rfl
  | setAddress e a =>
    simp only [execCall, execSetAddress, State.withEngine] at h
    cases hE : s.engines[e]? with
    | none => simp [hE] at h
    | some E =>
      simp only [hE] at h; cases h
      refine .inl ⟨_, rfl, fun hs F hF => ?_⟩
      rcases List.mem_or_eq_of_mem_set hF with hF | rfl
      · exact hs F hF
      · simpa [Engine.speedOk] using hs E (List.mem_of_getElem? hE)
  | setMaxSpeed e v =>
    simp only [execCall, execSetMaxSpeed, State.withEngine] at h
    cases hE : s.engines[e]? with
    | none => simp [hE] at h
    | some E =>
      simp only [hE, clamp_zero] at h
      split at h <;> cases h
      rename_i hb
      refine .inl ⟨_, rfl, fun hs F hF => ?_⟩
      rcases List.mem_or_eq_of_mem_set hF with hF | rfl
      · exact hs F hF
      · cases hc : E.currentSpeed with
        | none => simp [Engine.speedOk]
        | some c =>
          simp [speedWithin, hc, speedMax] at hb
          simp [Engine.speedOk, speedMax]
          rw [Nat.mod_eq_of_lt (by omega)]; omega
  | getCurrentSpeed e =>
    simp only [execCall, execGetCurrentSpeed, State.withEngine, withField] at h
    cases hE : s.engines[e]? with
    | none => simp [hE] at h
    | some E =>
      simp only [hE] at h
      split at h <;> cases h
      exact .inr (.inl ⟨_, rfl⟩)
  | testPattern =>
    cases h
    exact .inr (.inr ⟨_, rfl⟩)

end Sys2Proof.Machine
end

