-- ==== Sys2Proof/Laws/Step.lean ====
section
/-! SUPPORT. What one step can do, said once: the sequencer's steps as explicit next states, the accept step, and the
inversion of `step`. -/

namespace Sys2Proof.Machine

/-! ### Phases -/

theorem State.phase_idle_iff (s : State) : s.phase = .idle ↔ s.busy = false := by
  unfold State.phase; cases s.busy <;> simp; split <;> simp

theorem State.phase_framed {s : State} (hb : s.busy = true) (hr : s.raw = false) :
    s.phase = if 0 < s.repCnt.toNat then .emit else .flush := by
  simp [State.phase, State.bytesRemain, hb, hr]

theorem State.phase_raw {s : State} (hb : s.busy = true) (hr : s.raw = true) :
    s.phase = if s.rawIdx < s.reqRaw.length then .emit else .flush := by
  simp [State.phase, State.bytesRemain, hb, hr]

theorem State.busy_of_emit {s : State} (h : s.phase = .emit) : s.busy = true := by
  by_contra hb; have := s.phase_idle_iff.2 (by simpa using hb); simp [h] at this

theorem State.busy_of_flush {s : State} (h : s.phase = .flush) : s.busy = true := by
  by_contra hb; have := s.phase_idle_iff.2 (by simpa using hb); simp [h] at this

theorem State.phase_emit_or_flush {s : State} (h : s.busy = true) : s.phase = .emit ∨ s.phase = .flush := by
  cases hr : s.raw
  · rw [State.phase_framed h hr]; split <;> simp
  · rw [State.phase_raw h hr]; split <;> simp

theorem State.repCnt_of_emit {s : State} (hr : s.raw = false) (h : s.phase = .emit) : 0 < s.repCnt.toNat := by
  rw [State.phase_framed (State.busy_of_emit h) hr] at h; split at h <;> simp_all

theorem State.rawIdx_of_emit {s : State} (hr : s.raw = true) (h : s.phase = .emit) : s.rawIdx < s.reqRaw.length := by
  rw [State.phase_raw (State.busy_of_emit h) hr] at h; split at h <;> simp_all

/-! ### The sequencer's steps -/

theorem State.tick_flush {s : State} (h : s.phase = .flush) :
    s.tick = { s with
      sinkTrace := s.sinkTrace ++ [.flush], busy := false, rawIdx := 0, responses := s.responses ++ [⟨.ok, none⟩] } := by
  have hf : s.snkFlush = true := by simp [State.snkFlush, h, rawFlush]
  simp [State.tick, h, State.flushStep, hf, State.sinkFlush, State.respond, transmitStatus]

theorem State.tick_stalled {s : State} (h : s.phase = .emit) (hr : s.snkReady = false) :
    s.tick = { s with sinkReady := s.sinkReady.tail } := by
  simp [State.tick, h, State.emitStep, hr]

/-- A framed byte that is not the last of its burst. -/
theorem State.tick_framed {s : State} (h : s.phase = .emit) (hw : s.raw = false) (hr : s.snkReady = true)
    (hl : ¬(s.byteIdx = 2#2 ∧ s.repCnt = 1#5)) :
    s.tick = { s with
      sinkReady := s.sinkReady.tail
      burst := s.burst ++ [s.framedByte]
      byteIdx := if s.byteIdx.toNat < 2 then s.byteIdx + 1#2 else 0#2
      repCnt := if s.byteIdx.toNat < 2 then s.repCnt else s.repCnt - 1#5 } := by
  have hb := State.busy_of_emit h
  have hn := State.repCnt_of_emit hw h
  by_cases hi : s.byteIdx.toNat < 2 <;>
    simp [State.tick, State.emitStep, hr, State.emitByte, State.snkByte, State.snkLast, State.snkValid,
      State.phase, State.bytesRemain, hb, hw, hn, hl, State.transferByte, State.advanceFramed, hi, State.framedByte]

/-- The last byte of a framed burst completes its write (R192). -/
theorem State.tick_framedLast {s : State} (h : s.phase = .emit) (hw : s.raw = false) (hr : s.snkReady = true)
    (hi : s.byteIdx = 2#2) (hc : s.repCnt = 1#5) :
    s.tick = { s with
      sinkReady := s.sinkReady.tail, burst := [], byteIdx := 0#2, repCnt := 0#5
      sinkTrace := s.sinkTrace ++ [.write (s.burst ++ [lowByte s.wordReg])] } := by
  have hb := State.busy_of_emit h
  simp [State.tick, State.emitStep, hr, State.emitByte, State.snkByte, State.snkLast, State.snkValid, State.phase,
    State.bytesRemain, hb, hw, hi, hc, State.transferByte, State.advanceFramed, State.framedByte, State.sinkWrite]

/-- A raw byte that is not the last of its burst. -/
theorem State.tick_raw {s : State} {b : Byte} (hb : s.busy = true) (hw : s.raw = true) (hr : s.snkReady = true)
    (hx : s.reqRaw[s.rawIdx]? = some b) (hl : s.rawIdx + 1 ≠ s.reqRaw.length) :
    s.tick = { s with
      sinkReady := s.sinkReady.tail, burst := s.burst ++ [b], rawIdx := s.rawIdx + 1 } := by
  obtain ⟨hi, hv⟩ := List.getElem?_eq_some_iff.1 hx
  simp [State.tick, State.emitStep, hr, State.emitByte, State.snkByte, State.snkLast, State.snkValid, State.phase,
    State.bytesRemain, hb, hw, hi, hv, hl, State.transferByte, State.advanceRaw]

/-- The last byte of a raw burst completes its write. -/
theorem State.tick_rawLast {s : State} {b : Byte} (hb : s.busy = true) (hw : s.raw = true) (hr : s.snkReady = true)
    (hx : s.reqRaw[s.rawIdx]? = some b) (hl : s.rawIdx + 1 = s.reqRaw.length) :
    s.tick = { s with
      sinkReady := s.sinkReady.tail, burst := [], rawIdx := s.rawIdx + 1
      sinkTrace := s.sinkTrace ++ [.write (s.burst ++ [b])] } := by
  obtain ⟨hi, hv⟩ := List.getElem?_eq_some_iff.1 hx
  simp [State.tick, State.emitStep, hr, State.emitByte, State.snkByte, State.snkLast, State.snkValid, State.phase,
    State.bytesRemain, hb, hw, hl, hi, hv, State.transferByte, State.advanceRaw, State.sinkWrite]

/-- What a step of the sequencer can do (R194, R196, R198). -/
theorem State.tick_cases (s : State) :
    (s.busy = false ∧ s.tick = s) ∨
    (s.phase = .flush ∧ s.tick = { s with
      sinkTrace := s.sinkTrace ++ [.flush], busy := false, rawIdx := 0, responses := s.responses ++ [⟨.ok, none⟩] }) ∨
    (s.phase = .emit ∧ s.tick = { s with sinkReady := s.sinkReady.tail }) ∨
    (s.phase = .emit ∧ s.raw = false ∧ ¬(s.byteIdx = 2#2 ∧ s.repCnt = 1#5) ∧ s.tick = { s with
      sinkReady := s.sinkReady.tail
      burst := s.burst ++ [s.framedByte]
      byteIdx := if s.byteIdx.toNat < 2 then s.byteIdx + 1#2 else 0#2
      repCnt := if s.byteIdx.toNat < 2 then s.repCnt else s.repCnt - 1#5 }) ∨
    (s.phase = .emit ∧ s.raw = false ∧ s.byteIdx = 2#2 ∧ s.repCnt = 1#5 ∧ s.tick = { s with
      sinkReady := s.sinkReady.tail, burst := [], byteIdx := 0#2, repCnt := 0#5
      sinkTrace := s.sinkTrace ++ [.write (s.burst ++ [lowByte s.wordReg])] }) ∨
    (∃ b, s.phase = .emit ∧ s.raw = true ∧ s.reqRaw[s.rawIdx]? = some b ∧ s.rawIdx + 1 ≠ s.reqRaw.length ∧
      s.tick = { s with
        sinkReady := s.sinkReady.tail, burst := s.burst ++ [b], rawIdx := s.rawIdx + 1 }) ∨
    (∃ b, s.phase = .emit ∧ s.raw = true ∧ s.reqRaw[s.rawIdx]? = some b ∧ s.rawIdx + 1 = s.reqRaw.length ∧
      s.tick = { s with
        sinkReady := s.sinkReady.tail, burst := [], rawIdx := s.rawIdx + 1
        sinkTrace := s.sinkTrace ++ [.write (s.burst ++ [b])] }) := by
  cases hb : s.busy
  · exact .inl ⟨rfl, by simp [State.tick, s.phase_idle_iff.2 hb]⟩
  rcases State.phase_emit_or_flush hb with hp | hp
  swap
  · exact .inr (.inl ⟨hp, by rw [State.tick_flush hp]⟩)
  cases hr : s.snkReady
  · exact .inr (.inr (.inl ⟨hp, by rw [State.tick_stalled hp hr, hb]⟩))
  cases hw : s.raw
  · by_cases hl : s.byteIdx = 2#2 ∧ s.repCnt = 1#5
    · exact .inr (.inr (.inr (.inr (.inl
        ⟨hp, rfl, hl.1, hl.2, by rw [State.tick_framedLast hp hw hr hl.1 hl.2, hb, hw]⟩))))
    · exact .inr (.inr (.inr (.inl ⟨hp, rfl, hl, by rw [State.tick_framed hp hw hr hl, hb, hw]⟩)))
  · obtain ⟨b, hx⟩ : ∃ b, s.reqRaw[s.rawIdx]? = some b :=
      ⟨_, List.getElem?_eq_getElem (State.rawIdx_of_emit hw hp)⟩
    by_cases hl : s.rawIdx + 1 = s.reqRaw.length
    · exact .inr (.inr (.inr (.inr (.inr (.inr
        ⟨b, hp, rfl, hx, hl, by rw [State.tick_rawLast hb hw hr hx hl, hb, hw]⟩)))))
    · exact .inr (.inr (.inr (.inr (.inr (.inl
        ⟨b, hp, rfl, hx, hl, by rw [State.tick_raw hb hw hr hx hl, hb, hw]⟩)))))

/-! ### The sink's readiness -/

theorem State.readyAt_zero (s : State) : s.readyAt 0 = s.snkReady := by
  unfold State.readyAt State.snkReady; cases s.sinkReady <;> rfl

/-- After an emit step the readiness is that of the steps after it. -/
theorem State.readyAt_tail (s : State) (k : Nat) :
    ({ s with sinkReady := s.sinkReady.tail } : State).readyAt k = s.readyAt (k + 1) := by
  unfold State.readyAt; cases s.sinkReady <;> simp

/-- A sink is ready infinitely often exactly when it is once its listed steps are over. -/
theorem State.sinkFair_iff (s : State) : s.SinkFair ↔ s.sinkTail = true := by
  refine ⟨fun h => ?_, fun h n => ⟨max n s.sinkReady.length, by omega, ?_⟩⟩
  · obtain ⟨k, hk, hr⟩ := h s.sinkReady.length
    simpa [State.readyAt, List.getElem?_eq_none hk] using hr
  · simpa [State.readyAt, List.getElem?_eq_none (show s.sinkReady.length ≤ max n s.sinkReady.length by omega)] using h

theorem State.SinkStuck.snkReady {s : State} (h : s.SinkStuck) : s.snkReady = false := by
  rw [← State.readyAt_zero]; exact h 0

/-- A stalled step leaves a stuck sink stuck. -/
theorem State.SinkStuck.tail {s : State} (h : s.SinkStuck) :
    ({ s with sinkReady := s.sinkReady.tail } : State).SinkStuck := fun k => by
  rw [State.readyAt_tail]; exact h (k + 1)

/-! ### The accept step -/

theorem State.acceptIfSink_attached {s : State} (accept : State → State) (h : s.sinkEn = true) :
    s.acceptIfSink accept = accept s := by
  simp [State.acceptIfSink, h]

theorem State.acceptIfSink_unattached {s : State} (accept : State → State) (h : s.sinkEn = false) :
    s.acceptIfSink accept = s.unsent := by
  simp [State.acceptIfSink, h, State.configurationError_eq]

theorem State.acceptIfSink_cases (accept : State → State) (s : State) :
    (s.sinkEn = true ∧ s.acceptIfSink accept = accept s) ∨
    (s.sinkEn = false ∧ s.acceptIfSink accept = s.unsent) := by
  cases h : s.sinkEn <;> simp [State.acceptIfSink, h, State.configurationError_eq]

@[simp] theorem State.acceptInstr_sendFrame (s : State) (w : Word) :
    s.acceptInstr (.sendFrame w) = .next (s.acceptIfSink (State.acceptFramed w 1)) := rfl

@[simp] theorem State.acceptInstr_sendFrameRepeated (s : State) (w : Word) (n : Nat) :
    s.acceptInstr (.sendFrameRepeated w n) = .next (s.acceptIfSink (State.acceptFramed w (repetitions n))) := rfl

@[simp] theorem State.acceptInstr_systemHalt (s : State) :
    s.acceptInstr .systemHalt = .next (s.acceptIfSink (State.acceptFramed haltWord haltReps)) := rfl

@[simp] theorem State.acceptInstr_sendRawBytes (s : State) (bytes : List Byte) :
    s.acceptInstr (.sendRawBytes bytes) = .next (s.acceptIfSink (State.acceptRaw bytes)) := rfl

/-- What an accept step can do, if it answers next: the whole instruction, the refused accept, or a burst begun. -/
theorem State.acceptInstr_cases {i : Instr} {s t : State} (h : s.acceptInstr i = .next t) :
    exec i s = .next t ∨
    (s.sinkEn = false ∧ t = s.unsent) ∨
    (s.sinkEn = true ∧ ∃ w n, 1 ≤ n ∧ n ≤ 30 ∧ t = s.acceptFramed w n) ∨
    (s.sinkEn = true ∧ ∃ bytes, i = .sendRawBytes bytes ∧ t = s.acceptRaw bytes) := by
  cases i
  case sendFrame w =>
    cases h
    rcases s.acceptIfSink_cases (State.acceptFramed w 1) with ⟨hs, he⟩ | ⟨hs, he⟩
    · exact .inr (.inr (.inl ⟨hs, w, 1, by omega, by omega, he⟩))
    · exact .inr (.inl ⟨hs, he⟩)
  case sendFrameRepeated w n =>
    cases h
    rcases s.acceptIfSink_cases (State.acceptFramed w (repetitions n)) with ⟨hs, he⟩ | ⟨hs, he⟩
    · exact .inr (.inr (.inl ⟨hs, w, _, repetitions_pos n, repetitions_le n, he⟩))
    · exact .inr (.inl ⟨hs, he⟩)
  case systemHalt =>
    cases h
    rcases s.acceptIfSink_cases (State.acceptFramed haltWord haltReps) with ⟨hs, he⟩ | ⟨hs, he⟩
    · exact .inr (.inr (.inl ⟨hs, haltWord, haltReps, by decide, by decide, he⟩))
    · exact .inr (.inl ⟨hs, he⟩)
  case sendRawBytes bytes =>
    cases h
    rcases s.acceptIfSink_cases (State.acceptRaw bytes) with ⟨hs, he⟩ | ⟨hs, he⟩
    · exact .inr (.inr (.inr ⟨hs, bytes, rfl, he⟩))
    · exact .inr (.inl ⟨hs, he⟩)
  all_goals exact .inl h

/-- The operation of each transmit op code of the request port (R96). -/
theorem decodeRequest_sendFrame {r : Request} (h : r.op = 0b100#3) : decodeRequest r = .ok (.sendFrame r.word) := by
  simp [decodeRequest, h]

theorem decodeRequest_sendFrameRepeated {r : Request} (h : r.op = 0b101#3) :
    decodeRequest r = .ok (.sendFrameRepeated r.word r.reps.toNat) := by
  simp [decodeRequest, h]

theorem decodeRequest_systemHalt {r : Request} (h : r.op = 0b111#3) : decodeRequest r = .ok .systemHalt := by
  simp [decodeRequest, h]

theorem decodeRequest_sendRawBytes {r : Request} (h : r.op = 0b110#3) (hr : rawLengthOk r.raw.length = true) :
    decodeRequest r = .ok (.sendRawBytes r.raw) := by
  simp [decodeRequest, withRaw, h, hr]

/-- A raw request that decodes has a list of 1 to `RAW_MAX` bytes (R156). -/
theorem decodeRequest_raw {r : Request} {bytes : List Byte} (h : decodeRequest r = .ok (.sendRawBytes bytes)) :
    rawLengthOk bytes.length = true := by
  unfold decodeRequest at h
  split_ifs at h <;> try (cases h)
  · unfold withType at h; split at h <;> cases h
  · unfold withRaw at h; split at h <;> cases h; assumption

/-! ### One step -/

/-- A run goes on from the state its first step gives. -/
theorem run_succ {k : Nat} {s t : State} (h : step s = .next t) : run (k + 1) s = run k t := by simp [run, h]


/-- What a step can do, if it answers next. -/
theorem step_cases {s t : State} (h : step s = .next t) :
    (s.busy = true ∧ (∀ rest, s.pending ≠ .reset :: rest) ∧ t = s.tick) ∨
    (s.busy = false ∧ (
      (s.pending = [] ∧ t = s) ∨
      (∃ bytes rest i, s.pending = .record bytes :: rest ∧ decode bytes = .ok i ∧
        exec i { s with pending := rest } = .next t) ∨
      (∃ r rest i, s.pending = .serial r :: rest ∧ decodeRequest r = .ok i ∧
        ({ s with pending := rest } : State).acceptInstr i = .next t) ∨
      (∃ c rest, s.pending = .call c :: rest ∧ execCall c { s with pending := rest } = .next t) ∨
      (∃ rest, s.pending = .reset :: rest ∧
        t = { State.reset with pending := rest, sinkReady := s.sinkReady, sinkTail := s.sinkTail }) ∨
      (∃ rest, s.pending = .untilIdle :: rest ∧ t = { s with pending := rest }))) := by
  unfold step at h
  cases hb : s.busy
  · refine .inr ⟨rfl, ?_⟩
    simp only [hb, Bool.false_eq_true, if_false, State.takeInput] at h
    split at h
    · rename_i hp; cases h; exact .inl ⟨hp, rfl⟩
    · rename_i bytes rest hp
      unfold State.performRecord at h
      split at h
      · exact .inr (.inl ⟨bytes, rest, _, hp, by assumption, h⟩)
      · cases h
    · rename_i r rest hp
      unfold State.acceptRequest at h
      split at h
      · exact .inr (.inr (.inl ⟨r, rest, _, hp, by assumption, h⟩))
      · cases h
    · rename_i c rest hp; exact .inr (.inr (.inr (.inl ⟨c, rest, hp, h⟩)))
    · cases h
    · rename_i rest hp; cases h; exact .inr (.inr (.inr (.inr (.inl ⟨rest, hp, rfl⟩))))
    · rename_i rest hp; cases h; exact .inr (.inr (.inr (.inr (.inr ⟨rest, hp, rfl⟩))))
  · refine .inl ⟨rfl, ?_⟩
    simp only [hb, if_true, State.whileBusy] at h
    split at h <;> cases h
    rename_i hp _
    exact ⟨fun rest hr => hp rest hr, rfl⟩

/-- A request on the port that decodes is given to the accept step (R204). -/
theorem step_serial_ok {s : State} {r : Request} {rest : List Input} {i : Instr} (hb : s.busy = false)
    (hp : s.pending = .serial r :: rest) (hd : decodeRequest r = .ok i) :
    step s = ({ s with pending := rest } : State).acceptInstr i := by
  simp [step, hb, State.takeInput, hp, State.acceptRequest, hd]

/-- A step in a burst, with neither reset nor two requests presented, is the sequencer's. -/
theorem step_busy {s : State} (hb : s.busy = true) (hu : s.undisturbed = true) : step s = .next s.tick := by
  unfold step State.whileBusy
  unfold State.undisturbed at hu
  simp only [hb, if_true]
  split at hu <;> simp_all

end Sys2Proof.Machine
end

