-- ==== Sys2Proof/Tests/Slice0.lean ====
section
/-! SUPPORT. Tests by decide. Expected values are the spec's own: the vectors of spec/95_test_vectors.md (named in the
comments) and words and records written out from 30_encoding.md; then one witness for each statement with hypotheses. -/

namespace Sys2Proof.Tests

open Sys2Proof Sys2Proof.Machine

/-! ### Helpers -/

/-- A state in phase IDLE, with or without a sink. -/
def idle (sink : Bool) : State := { State.reset with sinkEn := sink, wordReg := 0#16 }

/-- The same with one Engine entity. -/
def idleWith (sink : Bool) (E : Engine) : State := { idle sink with engines := [E] }

/-- An entity with an address and a maximum speed. -/
def engineOf (address : BitVec 7) (maxSpeed : BitVec 5) : Engine := ⟨some address, some maxSpeed, none, none⟩

/-- The next state. -/
def after (o : Outcome) : Option State :=
  match o with
  | .next t => some t
  | _ => none

/-- The refusal. -/
def refusal (o : Outcome) : Option Refusal :=
  match o with
  | .refused r => some r
  | _ => none

/-- The last response. -/
def answer (o : Outcome) : Option Response := (after o).bind fun t => t.responses.getLast?

/-- The word of the last response. -/
def word (o : Outcome) : Option Nat := ((answer o).bind Response.word).map BitVec.toNat

/-- The sink event trace. -/
def trace (o : Outcome) : Option (List SinkEvent) := (after o).map State.sinkTrace

/-- The sink event trace, the diagnostic trace and the last status of an operation without a sink (2.5). -/
def noSink (o : Outcome) : Bool :=
  trace o = some [] && (after o).map State.diagTrace = some [.noSink] && answer o = some ⟨.unavailable, none⟩

/-- The instruction of a record. -/
def decoded (bytes : List Byte) : Option Instr :=
  match decode bytes with
  | .ok i => some i
  | .error _ => none

/-- The error of a record. -/
def rejected (bytes : List Byte) : Option DecodeError :=
  match decode bytes with
  | .ok _ => none
  | .error e => some e

/-- A request with an op code and nothing else. -/
def request (op : BitVec 3) : Request := Request.zero op

/-! ### WellFormed refuses an ill-formed term of each kind -/

theorem test_wf_port_address : (Instr.makeWord .engine 256 .action 0).wf = false := by decide
theorem test_wf_port_data : (Instr.engineSpeedWord 0 256).wf = false := by decide
theorem test_wf_repetitions : (Instr.sendFrameRepeated 0x009C#16 256).wf = false := by decide
theorem test_wf_raw_empty : (Instr.sendRawBytes []).wf = false := by decide
theorem test_wf_raw_long : (Instr.facadeRawBurst (List.replicate (Config.rawMax + 1) 0#8)).wf = false := by
  simp [Instr.wf, rawLengthOk]
theorem test_wf_engine_field : (Instr.makeWordEngine 128 .action 0).wf = false := by decide
theorem test_wf_train_field : (Instr.makeWordTrain 16 .action 0).wf = false := by decide
theorem test_wf_route_field : (Instr.makeWordRoute 32 .action 0).wf = false := by decide
theorem test_wf_data_field : (Instr.engineActionWordWord 0 32).wf = false := by decide
theorem test_wf_class_row : (Instr.classExtended .route 256 0).wf = false := by decide
theorem test_wf_type_row : (Instr.typeTrain 0 .action 256).wf = false := by decide
theorem test_wf_action_row : (Instr.actBell 128).wf = false := by decide
theorem test_wf_entity : (Instr.facadeBoost 65536).wf = false := by decide
theorem test_wf_facade_speed : (Instr.facadeSetSpeed 0 256).wf = false := by decide
theorem test_wf_holds : (Instr.makeWord .engine 255 .absoluteSpeed 255).wf = true := by decide

/-! ### Decoding: table words written out from R81 to R83, R92, R96, R103 and the vectors 2.1 to 2.3 -/

theorem test_word_make_word : decodeTableWord 8 0b000 = some (.makeWord .engine 0 .action 0) := by decide
theorem test_word_action_word : decodeTableWord 8 0b001 = some (.engineActionWord 0 0) := by decide
theorem test_word_speed_word : decodeTableWord 8 0b010 = some (.engineSpeedWord 0 0) := by decide
theorem test_word_set_sink : decodeTableWord 8 0b011 = some .setSink := by decide
theorem test_word_send_frame : decodeTableWord 8 0b100 = some (.sendFrame 0#16) := by decide
theorem test_word_send_repeated : decodeTableWord 8 0b101 = some (.sendFrameRepeated 0#16 0) := by decide
theorem test_word_send_raw : decodeTableWord 8 0b110 = some (.sendRawBytes [0#8]) := by decide
theorem test_word_halt_request : decodeTableWord 8 0b111 = some .systemHalt := by decide
theorem test_word_engine : decodeTableWord 16 0b0011000111001010 = some (.makeWordEngine 99 .relativeSpeed 10) := by
  decide
theorem test_word_switch : decodeTableWord 16 0b0100001010011111 = some (.makeWordSwitch 5 .action 31) := by decide
theorem test_word_accessory : decodeTableWord 16 0b1000011000001001 = some (.makeWordAccessory 12 .action 9) := by decide
theorem test_word_train : decodeTableWord 16 0b1100100111101010 = some (.makeWordTrain 3 .absoluteSpeed 10) := by decide
theorem test_word_route : decodeTableWord 16 0b1101001110011111 = some (.makeWordRoute 7 .action 31) := by decide
theorem test_word_engine_action : decodeTableWord 16 0b0000000010000010 = some (.engineActionWordWord 1 2) := by decide
theorem test_word_engine_speed : decodeTableWord 16 0b0001010101110010 = some (.engineSpeedWordWord 42 18) := by decide
theorem test_word_halt : decodeTableWord 16 0b1111111111111111 = some .haltWord := by decide
theorem test_word_unassigned : decodeTableWord 16 0b1100000100100011 = none := by decide
theorem test_word_frame : decodeTableWord 24 0b111111100000000010011100 = some (.frame 0x00#8 0x9C#8) := by decide
theorem test_word_frame_header : decodeTableWord 24 0b111111110000000010011100 = none := by decide

/-- The words of the rows ACT.<name> for address 1 (2.3). -/
theorem test_word_actions :
    [0x0080, 0x0081, 0x0083, 0x0084, 0x0085, 0x0086, 0x0087, 0x0088, 0x0089, 0x008A].map (decodeTableWord 16) =
      [some (.actForward 1), some (.actToggleDirection 1), some (.actReverse 1), some (.actBoost 1),
        some (.actFrontCoupler 1), some (.actRearCoupler 1), some (.actBrake 1), some (.actAux1Off 1),
        some (.actAux1Option1 1), some (.actAux1Option2 1)] ∧
    [0x008B, 0x008C, 0x008D, 0x008E, 0x008F, 0x009C, 0x009D, 0x009E, 0x009F].map (decodeTableWord 16) =
      [some (.actAux1On 1), some (.actAux2Off 1), some (.actAux2Option1 1), some (.actAux2Option2 1),
        some (.actAux2On 1), some (.actHorn1 1), some (.actBell 1), some (.actLetOff 1), some (.actHorn2 1)] := by
  decide

/-! ### Decoding: records with operands (programs P1 to P3; R97, R98) -/

theorem test_record_make_word :
    decoded [0x00#8, 0b000#8, 0b011#8, 0x1F#8, 0b00#8, 0x00#8, 0#8, 0#8, 0#8] = some (.makeWord .train 31 .action 0) := by
  decide
theorem test_record_action_word :
    decoded [0x00#8, 0b001#8, 0#8, 0x01#8, 0#8, 0x1C#8, 0#8, 0#8, 0#8] = some (.engineActionWord 1 28) := by decide
theorem test_record_speed_word :
    decoded [0x00#8, 0b010#8, 0#8, 0x81#8, 0#8, 0xC8#8, 0#8, 0#8, 0#8] = some (.engineSpeedWord 129 200) := by decide
theorem test_record_send_frame :
    decoded [0x00#8, 0b100#8, 0#8, 0#8, 0#8, 0#8, 0x00#8, 0xF2#8, 0#8] = some (.sendFrame 0x00F2#16) := by decide
theorem test_record_send_repeated :
    decoded [0x00#8, 0b101#8, 0#8, 0#8, 0#8, 0#8, 0xD3#8, 0x9F#8, 0x64#8] = some (.sendFrameRepeated 0xD39F#16 100) := by
  decide
theorem test_record_send_raw :
    decoded [0x00#8, 0b110#8, 0#8, 0#8, 0#8, 0#8, 0#8, 0#8, 0#8, 0xFE#8, 0x42#8] =
      some (.sendRawBytes [0xFE#8, 0x42#8]) := by decide
theorem test_record_reserved_type :
    rejected [0x00#8, 0b000#8, 0b101#8, 0#8, 0#8, 0#8, 0#8, 0#8, 0#8] = some (.reservedType 5) := by decide
theorem test_record_empty_raw :
    rejected [0x00#8, 0b110#8, 0#8, 0#8, 0#8, 0#8, 0#8, 0#8, 0#8] = some (.rawLength 0) := by decide

/-- The formats MAKE and ENGINE name the row, so that each overlapping row has a record of its own (log 1). -/
theorem test_record_make_forms :
    [[0x05#8, 0x00#8, 0x9C#8], [0x05#8, 0x42#8, 0x9F#8], [0x05#8, 0x86#8, 0x09#8], [0x05#8, 0xC9#8, 0xEA#8],
      [0x05#8, 0xD3#8, 0x9F#8], [0x06#8, 0x00#8, 0x9C#8], [0x06#8, 0x00#8, 0xF2#8]].map decoded =
      [some (.makeWordEngine 1 .action 28), some (.makeWordSwitch 5 .action 31), some (.makeWordAccessory 12 .action 9),
        some (.makeWordTrain 3 .absoluteSpeed 10), some (.makeWordRoute 7 .action 31),
        some (.engineActionWordWord 1 28), some (.engineSpeedWordWord 1 18)] := by decide

/-- The class codes of R86 and the type codes of R98. -/
theorem test_record_class_rows :
    [[0x03#8, 0b00#8, 0b000#8, 5#8, 7#8], [0x03#8, 0b01#8, 0b001#8, 5#8, 7#8], [0x03#8, 0b10#8, 0b010#8, 5#8, 7#8],
      [0x03#8, 0b11#8, 0b100#8, 5#8, 7#8]].map decoded =
      [some (.classAction .engine 5 7), some (.classExtended .switch 5 7), some (.classRelativeSpeed .accessory 5 7),
        some (.classAbsoluteSpeed .route 5 7)] := by decide
theorem test_record_type_rows :
    [[0x04#8, 0b000#8, 5#8, 0b00#8, 7#8], [0x04#8, 0b001#8, 5#8, 0b01#8, 7#8], [0x04#8, 0b010#8, 5#8, 0b10#8, 7#8],
      [0x04#8, 0b011#8, 5#8, 0b11#8, 7#8], [0x04#8, 0b100#8, 5#8, 0b00#8, 7#8]].map decoded =
      [some (.typeEngine 5 .action 7), some (.typeSwitch 5 .extended 7), some (.typeAccessory 5 .relativeSpeed 7),
        some (.typeTrain 5 .absoluteSpeed 7), some (.typeRoute 5 .action 7)] := by decide

/-- The facade rows in the table's order (R103). -/
theorem test_record_facade_rows :
    [[0x07#8, 0#8, 0x01#8, 0x02#8, 200#8], [0x07#8, 1#8, 0#8, 3#8], [0x07#8, 2#8, 0#8, 3#8], [0x07#8, 3#8, 0#8, 3#8],
      [0x07#8, 4#8, 0#8, 3#8], [0x07#8, 5#8, 0#8, 3#8]].map decoded =
      [some (.facadeSetSpeed 258 200), some (.facadeSetDirectionForward 3), some (.facadeSetDirectionReverse 3),
        some (.facadeOpenFrontCoupler 3), some (.facadeOpenRearCoupler 3), some (.facadeBoost 3)] ∧
    [[0x07#8, 6#8, 0#8, 3#8], [0x07#8, 7#8, 0#8, 3#8], [0x07#8, 8#8, 0#8, 3#8], [0x07#8, 9#8], [0x07#8, 10#8],
      [0x07#8, 11#8, 0xFE#8]].map decoded =
      [some (.facadeBrake 3), some (.facadeBlowHorn 3), some (.facadeRingBell 3), some .facadeAttachSink,
        some .facadeSystemHalt, some (.facadeRawBurst [0xFE#8])] := by decide

theorem test_reject_formats :
    [[], [0x08#8], [0x07#8, 12#8, 0#8, 0#8], [0x01#8, 0xC1#8], [0x02#8, 0xFF#8, 0#8, 0#8]].map rejected =
      [some .unknownFormat, some .unknownFormat, some .fieldTooWide, some .wrongLength, some .notHeader] := by decide

/-! ### Encoding -/

theorem test_encode_train : encode (.makeWordTrain 3 .absoluteSpeed 10) = [0x05#8, 0xC9#8, 0xEA#8] := by decide
theorem test_encode_horn : encode (.actHorn1 1) = [0x01#8, 0x00#8, 0x9C#8] := by decide

/-! ### The codec (2.1 to 2.3) -/

theorem test_make_word_masks_address : word (exec (.makeWord .engine 200 .action 28) (idle false)) = some 0x241C := by
  decide
theorem test_make_word_masks_data : word (exec (.makeWord .engine 129 .action 32) (idle false)) = some 0x0080 := by decide
theorem test_action_word_masks : word (exec (.engineActionWord 129 60) (idle false)) = some 0x009C := by decide
theorem test_speed_word_clamps : word (exec (.engineSpeedWord 1 32) (idle false)) = some 0x00FF := by decide
theorem test_speed_word_masks_address : word (exec (.engineSpeedWord 129 5) (idle false)) = some 0x00E5 := by decide
theorem test_engine_form : word (exec (.makeWordEngine 5 .extended 7) (idle false)) = some 0x02A7 := by decide
theorem test_switch_form : word (exec (.makeWordSwitch 127 .absoluteSpeed 31) (idle false)) = some 0x7FFF := by decide
theorem test_accessory_form : word (exec (.makeWordAccessory 12 .action 9) (idle false)) = some 0x8609 := by decide
theorem test_train_form : word (exec (.makeWordTrain 17 .action 1) (idle false)) = some 0xC881 := by decide
theorem test_route_form : word (exec (.makeWordRoute 33 .action 1) (idle false)) = some 0xD081 := by decide
theorem test_action_pattern : word (exec (.engineActionWordWord 42 28) (idle false)) = some 0x151C := by decide
theorem test_speed_pattern : word (exec (.engineSpeedWordWord 77 30) (idle false)) = some 0x26FE := by decide
theorem test_class_rows :
    [.classAction .engine 1 28, .classExtended .engine 23 9, .classRelativeSpeed .engine 99 10,
      .classAbsoluteSpeed .train 3 10].map (fun i => word (exec i (idle false))) =
      [some 0x009C, some 0x0BA9, some 0x31CA, some 0xC9EA] := by decide
theorem test_type_rows :
    [.typeEngine 255 .action 0, .typeSwitch 10 .action 0, .typeAccessory 128 .action 0, .typeTrain 31 .action 0,
      .typeRoute 39 .action 31].map (fun i => word (exec i (idle false))) =
      [some 0x3F80, some 0x4500, some 0x8000, some 0xCF80, some 0xD39F] := by decide
theorem test_action_rows :
    [.actForward 1, .actToggleDirection 1, .actReverse 1, .actBoost 1, .actFrontCoupler 1, .actRearCoupler 1, .actBrake 1,
      .actAux1Off 1, .actAux1Option1 1, .actAux1Option2 1].map (fun i => word (exec i (idle false))) =
      [some 0x0080, some 0x0081, some 0x0083, some 0x0084, some 0x0085, some 0x0086, some 0x0087, some 0x0088,
        some 0x0089, some 0x008A] ∧
    [.actAux1On 1, .actAux2Off 1, .actAux2Option1 1, .actAux2Option2 1, .actAux2On 1, .actHorn1 1, .actBell 1,
      .actLetOff 1, .actHorn2 1].map (fun i => word (exec i (idle false))) =
      [some 0x008B, some 0x008C, some 0x008D, some 0x008E, some 0x008F, some 0x009C, some 0x009D, some 0x009E,
        some 0x009F] := by decide

/-! ### The reader of words and frames (2.8) -/

theorem test_read_frames :
    [[0xFE#8, 0x00#8, 0xF2#8], [0xFE#8, 0x86#8, 0x09#8], [0xFE#8, 0xC9#8, 0xEA#8], [0xFE#8, 0xFF#8, 0xFF#8],
      [0xFE#8, 0xC1#8, 0x23#8]].map readFrame =
      [.assigned ⟨.engine, 1, .absoluteSpeed, 18⟩, .assigned ⟨.accessory, 12, .action, 9⟩,
        .assigned ⟨.train, 3, .absoluteSpeed, 10⟩, .halt, .unassigned] := by decide

/-- A burst is read by its first frame; a raw burst that begins with the header is read the same way (R104). -/
theorem test_read_bursts :
    [(List.replicate 30 [0xFE#8, 0x00#8, 0x9C#8]).flatten, (List.replicate 10 [0xFE#8, 0xFF#8, 0xFF#8]).flatten,
      [0xFE#8, 0x00#8, 0xF2#8, 0x42#8], [0x55#8, 0xAA#8, 0x00#8], [0xFE#8, 0x00#8]].map readFrame =
      [.assigned ⟨.engine, 1, .action, 28⟩, .halt, .assigned ⟨.engine, 1, .absoluteSpeed, 18⟩, .noFrame, .noFrame] := by
  decide

/-! ### The transmitter (2.4, 2.5) -/

theorem test_set_sink : (after (exec .setSink (idle false))).map State.sinkEn = some true := by decide
theorem test_send_frame :
    trace (exec (.sendFrame 0xFEFE#16) (idle true)) = some [.write [0xFE#8, 0xFE#8, 0xFE#8], .flush] := by decide
theorem test_send_frame_no_sink : noSink (exec (.sendFrame 0x009C#16) (idle false)) = true := by decide
theorem test_send_repeated_two :
    trace (exec (.sendFrameRepeated 0x009C#16 2) (idle true)) =
      some [.write [0xFE#8, 0x00#8, 0x9C#8, 0xFE#8, 0x00#8, 0x9C#8], .flush] := by decide
theorem test_send_repeated_zero :
    trace (exec (.sendFrameRepeated 0x009C#16 0) (idle true)) = some [.write [0xFE#8, 0x00#8, 0x9C#8], .flush] := by decide
theorem test_halt_request :
    trace (exec .systemHalt (idle true)) =
      some [.write (List.replicate 10 [0xFE#8, 0xFF#8, 0xFF#8]).flatten, .flush] := by decide
theorem test_halt_no_sink : noSink (exec .systemHalt (idle false)) = true := by decide
theorem test_halt_word_row :
    trace (exec .haltWord (idle true)) = some [.write (List.replicate 10 [0xFE#8, 0xFF#8, 0xFF#8]).flatten, .flush] := by
  decide
theorem test_frame_row :
    trace (exec (.frame 0xD3#8 0x9F#8) (idle true)) = some [.write [0xFE#8, 0xD3#8, 0x9F#8], .flush] := by decide
theorem test_send_raw :
    trace (exec (.sendRawBytes [0x55#8, 0xAA#8, 0x00#8, 0xFF#8, 0x55#8, 0xAA#8]) (idle true)) =
      some [.write [0x55#8, 0xAA#8, 0x00#8, 0xFF#8, 0x55#8, 0xAA#8], .flush] := by decide
theorem test_send_raw_empty : refusal (exec (.sendRawBytes []) (idle true)) = some (.rawLength 0) := by decide

/-! ### The facade (2.7) -/

theorem test_set_speed_clamps :
    trace (exec (.facadeSetSpeed 0 200) (idleWith true (engineOf 1 18))) = some [.write [0xFE#8, 0x00#8, 0xF2#8], .flush] ∧
    (after (exec (.facadeSetSpeed 0 200) (idleWith true (engineOf 1 18)))).map State.engines =
      some [⟨some 1, some 18, some 18, none⟩] := by decide
theorem test_set_speed_unset : refusal (exec (.facadeSetSpeed 0 5) (idleWith true Engine.new)) =
    some (.engineFieldUnset .maxSpeed) := by decide
theorem test_direction_forward :
    trace (exec (.facadeSetDirectionForward 0) (idleWith true (engineOf 42 31))) =
      some [.write [0xFE#8, 0x15#8, 0x00#8], .flush] := by decide
theorem test_direction_reverse :
    trace (exec (.facadeSetDirectionReverse 0) (idleWith true (engineOf 3 31))) =
      some [.write [0xFE#8, 0x01#8, 0x83#8], .flush] ∧
    (after (exec (.facadeSetDirectionReverse 0) (idleWith true (engineOf 3 31)))).map State.engines =
      some [⟨some 3, some 31, none, some .reverse⟩] := by decide
theorem test_front_coupler :
    trace (exec (.facadeOpenFrontCoupler 0) (idleWith true (engineOf 3 31))) =
      some [.write [0xFE#8, 0x01#8, 0x85#8], .flush] := by decide
theorem test_rear_coupler :
    trace (exec (.facadeOpenRearCoupler 0) (idleWith true (engineOf 3 31))) =
      some [.write [0xFE#8, 0x01#8, 0x86#8], .flush] := by decide
theorem test_boost :
    trace (exec (.facadeBoost 0) (idleWith true (engineOf 99 31))) = some [.write [0xFE#8, 0x31#8, 0x84#8], .flush] := by
  decide
theorem test_brake :
    trace (exec (.facadeBrake 0) (idleWith true (engineOf 99 31))) = some [.write [0xFE#8, 0x31#8, 0x87#8], .flush] := by
  decide
theorem test_horn :
    trace (exec (.facadeBlowHorn 0) (idleWith true (engineOf 42 31))) =
      some [.write (List.replicate 30 [0xFE#8, 0x15#8, 0x1C#8]).flatten, .flush] := by decide
theorem test_bell :
    trace (exec (.facadeRingBell 0) (idleWith true (engineOf 1 31))) =
      some [.write (List.replicate 30 [0xFE#8, 0x00#8, 0x9D#8]).flatten, .flush] := by decide
theorem test_attach_sink : (after (exec .facadeAttachSink (idle false))).map State.sinkEn = some true := by decide
theorem test_facade_halt : noSink (exec .facadeSystemHalt (idle false)) = true := by decide
theorem test_raw_burst : trace (exec (.facadeRawBurst [0xFE#8]) (idle true)) = some [.write [0xFE#8], .flush] := by decide
theorem test_no_such_engine : refusal (exec (.facadeBoost 1) (idleWith true (engineOf 1 1))) = some (.noSuchEngine 1) := by
  decide
theorem test_set_address : (after (execCall (.setAddress 0 129) (idleWith true Engine.new))).map State.engines =
    some [⟨some 1, none, none, none⟩] := by decide
theorem test_set_max_speed : (after (execCall (.setMaxSpeed 0 200) (idleWith true Engine.new))).map State.engines =
    some [⟨none, some 31, none, none⟩] := by decide
theorem test_max_below_current :
    refusal (execCall (.setMaxSpeed 0 17) (idleWith true ⟨some 1, some 18, some 18, none⟩)) =
      some .maxSpeedBelowCurrent := by decide
theorem test_get_speed :
    (after (execCall (.getCurrentSpeed 0) (idleWith true ⟨some 1, some 18, some 18, none⟩))).map State.speedResults =
      some [18] := by decide
theorem test_pattern_no_sink :
    (after (execCall .testPattern (idle false))).map State.diagTrace = some [.noSink, .noSink] := by decide

/-! ### The sequencer (2.6): send_frame_repeated(0x009C, 2), the registers before each step -/

/-- The request of 2.6. -/
def twoFrames : Request := { request 0b101#3 with word := 0x009C#16, reps := 2#8 }

/-- A state of 2.6. -/
def at26 (busy : Bool) (repCnt : BitVec 5) (byteIdx : BitVec 2) (burst : List Byte) : State :=
  { idle true with busy := busy, wordReg := 0x009C#16, repCnt := repCnt, byteIdx := byteIdx, burst := burst }

theorem test_step0_accept :
    after (step { idle true with pending := [.serial twoFrames] }) = some (at26 true 2 0 []) := by decide
theorem test_step1_header : after (step (at26 true 2 0 [])) = some (at26 true 2 1 [0xFE#8]) := by decide
theorem test_step3_low :
    after (step (at26 true 2 2 [0xFE#8, 0x00#8])) = some (at26 true 1 0 [0xFE#8, 0x00#8, 0x9C#8]) ∧
    (at26 true 2 2 []).snkByte = some 0x9C#8 ∧ (at26 true 2 2 []).snkLast = false := by decide
theorem test_step6_last :
    (after (step (at26 true 1 2 [0xFE#8, 0x00#8, 0x9C#8, 0xFE#8, 0x00#8]))).map State.sinkTrace =
      some [.write [0xFE#8, 0x00#8, 0x9C#8, 0xFE#8, 0x00#8, 0x9C#8]] ∧ (at26 true 1 2 []).snkLast = true := by decide
theorem test_step7_flush :
    trace (step (at26 true 0 0 [])) = some [.flush] ∧ (at26 true 0 0 []).snkFlush = true ∧
    answer (step (at26 true 0 0 [])) = some ⟨.ok, none⟩ := by decide
theorem test_stall :
    after (step { at26 true 2 2 [] with sinkReady := [false, true] }) =
      some { at26 true 2 2 [] with sinkReady := [true] } := by decide
theorem test_stuck_sink :
    after (step { at26 true 2 2 [] with sinkTail := false }) = some { at26 true 2 2 [] with sinkTail := false } := by decide
theorem test_until_idle_waits :
    after (step { at26 true 0 0 [] with pending := [.untilIdle, .reset] }) =
      some { at26 false 0 0 [] with
        pending := [.untilIdle, .reset], sinkTrace := [.flush], responses := [⟨.ok, none⟩] } := by decide
theorem test_until_idle_taken :
    after (step { idle true with pending := [.untilIdle, .reset] }) = some { idle true with pending := [.reset] } := by
  decide
theorem test_serial_no_sink : noSink (step { idle false with pending := [.serial twoFrames] }) = true := by decide
theorem test_accept_clamps :
    (after (step { idle true with pending := [.serial { twoFrames with reps := 100#8 }] })).map State.repCnt = some 30 ∧
    (after (step { idle true with pending := [.serial { twoFrames with reps := 0#8 }] })).map State.repCnt = some 1 := by
  decide

/-! ### The host's word interface -/

theorem test_first_step_after_reset :
    word (step (State.reset.withFetchWord 16 0b1100100111101010)) = some 0xC9EA := by decide

/-! ### Witnesses: for every statement with hypotheses, states and operands that meet them together -/

/-- Phase IDLE with an input presented. -/
def presented (sink : Bool) (i : Input) : State := { idle sink with pending := [i] }

/-- A burst in progress: the second frame of 2.6, with an input presented. -/
def busyWith (pending : List Input) : State := { at26 true 1 0 [0xFE#8, 0x00#8, 0x9C#8] with pending := pending }

theorem witness_ResetGivesIdleBlockWithoutSink :
    (presented true .reset).busy = false ∧ (presented true .reset).pending = .reset :: [] := by decide

theorem witness_ResetInBurst :
    (busyWith [.reset]).busy = true ∧ (busyWith [.reset]).pending = .reset :: [] := by decide

theorem witness_ResetHeldBack :
    (busyWith [.untilIdle, .reset]).busy = true ∧ (busyWith [.untilIdle, .reset]).pending = .untilIdle :: .reset :: [] ∧
    ({ idle true with pending := [.untilIdle, .reset] } : State).busy = false := by decide

theorem witness_TwoRequests :
    (presented true (.together twoFrames twoFrames)).pending = .together twoFrames twoFrames :: [] ∧
    (busyWith [.together twoFrames twoFrames]).pending = .together twoFrames twoFrames :: [] := by decide

theorem witness_StepRunsTheDecodedInstruction :
    (presented true (.record [0x07#8, 9#8])).busy = false ∧
    (presented true (.record [0x07#8, 9#8])).pending = .record [0x07#8, 9#8] :: [] ∧
    decode [0x07#8, 9#8] = .ok .facadeAttachSink ∧
    (presented true (.record [])).pending = .record [] :: [] ∧ decode [] = .error .unknownFormat ∧
    (presented true (.call .testPattern)).pending = .call .testPattern :: [] ∧
    decodeTableWord 16 0xFFFF = some .haltWord :=
  ⟨rfl, rfl, rfl, rfl, rfl, rfl, rfl⟩

theorem witness_IdleBlockActsOnlyOnRequests :
    (idle true).busy = false ∧ (idle true).pending = [] ∧
    (presented true (.serial twoFrames)).pending = .serial twoFrames :: [] ∧
    (presented true .untilIdle).pending = .untilIdle :: [] ∧
    ∃ t, step (presented true (.serial twoFrames)) = .next t :=
  ⟨rfl, rfl, rfl, rfl, _, rfl⟩

theorem witness_DecodeOfEncode :
    (Instr.makeWord .route 255 .absoluteSpeed 255).wf = true ∧ (Instr.makeWordTrain 15 .absoluteSpeed 31).wf = true ∧
    (Instr.makeWordRoute 31 .action 31).wf = true ∧ (Instr.sendRawBytes [0#8]).wf = true ∧
    (Instr.facadeSetSpeed 65535 255).wf = true := by decide

/-- Every object type, the fields MAKE_WORD does not use filled (R97). -/
theorem witness_ObjectTypes :
    ∀ t ∈ [ObjectType.engine, .switch, .accessory, .train, .route],
      let r : Request := ⟨0b000#3, t.code, 0xFF#8, 0b10#2, 0xFF#8, 0xFFFF#16, 0xFF#8, [0#8]⟩
      r.op = 0b000#3 ∧ r.type = t.code := by decide

theorem witness_ObjectTypeCodes :
    ∀ code ∈ [5#3, 7#3], ∃ r : Request, r.type = code ∧ r.op = 0b000#3 ∧ 5 ≤ r.type.toNat ∧
      (presented true (.serial r)).busy = false ∧ (presented true (.serial r)).pending = .serial r :: [] ∧
      (presented true (.record (reqRecord r))).pending = .record (reqRecord r) :: [] := by
  intro code hc
  refine ⟨{ request 0b000#3 with type := code }, rfl, rfl, ?_, rfl, rfl, rfl⟩
  revert code; decide

theorem witness_NamedActionRows :
    (Instr.actForward, 0x00) ∈ [(Instr.actForward, 0x00), (Instr.actHorn2, 0x1F)] := by simp

theorem witness_Unassigned :
    Unassigned 0xC000#16 ∧ Unassigned 0xC7FF#16 ∧ Unassigned 0xE000#16 ∧ Unassigned 0xFFFF#16 := by
  unfold Unassigned; decide

theorem witness_MakeWordIsLosslessInRange :
    (15 < 2 ^ typeAddressWidth .train ∧ 31 < 32) ∧ (127 < 2 ^ typeAddressWidth .engine ∧ 0 < 32) ∧
    exec (.makeWord .train 15 .action 31) (idle true) = exec (.makeWord .train 15 .action 31) (idle true) := by
  exact ⟨by decide, by decide, rfl⟩

theorem witness_OutputDecoder :
    31 < 2 ^ typeAddressWidth .route ∧ 31 < 32 ∧ Unassigned 0xFFFE#16 ∧ (0xFFFE#16 : Word) ≠ 0xFFFF#16 ∧
    (0xFF#8 : Byte) ≠ 0xFE#8 := by
  unfold Unassigned; decide

theorem witness_isCodec : isCodec (.makeWord .engine 0 .action 0) = true ∧ isCodec (.actHorn2 1) = true := by decide

theorem witness_sink : (idle true).sinkEn = true ∧ (idle false).sinkEn = false := by decide

theorem witness_SendRawBytes :
    (1 ≤ [0xFE#8].length ∧ [0xFE#8].length ≤ Config.rawMax) ∧
    (1 ≤ testPatternBytes.length ∧ testPatternBytes.length ≤ Config.rawMax) ∧
    Config.rawMax < (List.replicate (Config.rawMax + 1) (0#8 : Byte)).length := by
  refine ⟨?_, ?_, ?_⟩ <;> simp [Config.rawMax, testPatternBytes]

theorem witness_transmits :
    (transmits .systemHalt = true ∧ rawFits .systemHalt = true) ∧
    (transmits (.sendRawBytes [0#8]) = true ∧ rawFits (.sendRawBytes [0#8]) = true) ∧
    (∃ t, exec (.sendFrame 0#16) (idle false) = .next t) ∧
    (∃ u, exec .setSink (idle false) = .next u) ∧
    (∃ r, exec (.facadeBoost 0) (idle false) = .refused r) :=
  ⟨by decide, by decide, ⟨_, rfl⟩, ⟨_, rfl⟩, ⟨_, rfl⟩⟩

theorem witness_OperationsAreIndependentOfHistory :
    entity .systemHalt = none ∧ (idle true).sinkEn = (at26 true 1 0 []).sinkEn ∧
    ∃ t, exec .systemHalt (idle true) = .next t :=
  ⟨rfl, rfl, _, rfl⟩

theorem witness_step_with_sink :
    (∀ rest, (presented true (.serial twoFrames)).pending ≠ .reset :: rest) ∧
    (presented true (.serial twoFrames)).sinkEn = true ∧ ∃ t, step (presented true (.serial twoFrames)) = .next t :=
  ⟨fun _ h => (by cases h), rfl, _, rfl⟩

theorem witness_step_changes_sink :
    ∃ t, step (presented false (.serial (request 0b011#3))) = .next t ∧
      t.sinkEn ≠ (presented false (.serial (request 0b011#3))).sinkEn :=
  ⟨_, rfl, by decide⟩

theorem witness_BlockOperationsComplete :
    entity (.sendRawBytes []) = none ∧ rawFits (.sendRawBytes []) = false ∧ rawFits .setSink = true := by decide

theorem witness_engine :
    (idleWith true (engineOf 1 18)).engines[0]? = some (engineOf 1 18) ∧ (engineOf 1 18).address = some 1 ∧
    (engineOf 1 18).maxSpeed = some 18 ∧ (idleWith true (engineOf 1 18)).sinkEn = true ∧
    (idleWith false (engineOf 1 18)).engines[0]? = some (engineOf 1 18) ∧
    (idleWith false (engineOf 1 18)).sinkEn = false := by decide

theorem witness_entity_rows :
    entity (.facadeBoost 0) = some 0 ∧ (∃ t, exec (.facadeBoost 0) (idleWith false (engineOf 1 1)) = .next t) ∧
    (idleWith true ⟨some 1, some 18, some 18, none⟩).engines[0]? = some ⟨some 1, some 18, some 18, none⟩ :=
  ⟨rfl, ⟨_, rfl⟩, rfl⟩

theorem witness_AddressAndMaxSpeedSetters :
    (idleWith true ⟨none, some 18, some 18, none⟩).engines[0]? = some ⟨none, some 18, some 18, none⟩ ∧
    (18#5).toNat ≤ min 18 31 ∧ min 17 31 < (18#5).toNat := by decide

theorem witness_UnsetEngineFields :
    (idleWith true Engine.new).engines[0]? = some Engine.new ∧ Engine.new.address = none ∧ Engine.new.maxSpeed = none ∧
    Engine.new.currentSpeed = none ∧ entity (.facadeRingBell 0) = some 0 := by decide

theorem witness_EntitiesAreIndependent :
    ∃ t, exec (.facadeSetSpeed 0 200) (idleWith true (engineOf 1 18)) = .next t ∧
      (idleWith true (engineOf 1 18)).engines[0]? = some (engineOf 1 18) ∧
      t.engines[0]? = some ⟨some 1, some 18, some 18, none⟩ ∧ entity (.facadeSetSpeed 0 200) ≠ some 1 :=
  ⟨_, rfl, rfl, rfl, by decide⟩

theorem witness_FramedAccept :
    ∀ op ∈ [0b100#3, 0b101#3, 0b111#3], (presented true (.serial (request op))).busy = false ∧
      (presented true (.serial (request op))).pending = .serial (request op) :: [] ∧
      (presented true (.serial (request op))).sinkEn = true ∧ (request op).op = op := by decide

theorem witness_AcceptWithoutSink :
    (presented false (.serial twoFrames)).busy = false ∧
    (presented false (.serial twoFrames)).pending = .serial twoFrames :: [] ∧
    (presented false (.serial twoFrames)).sinkEn = false ∧ twoFrames.op = 0b101#3 ∧
    rawLengthOk ({ request 0b110#3 with raw := [0#8] } : Request).raw.length = true := by decide

theorem witness_CodecRequests :
    (presented false (.serial (request 0b011#3))).busy = false ∧
    (presented false (.serial (request 0b011#3))).pending = .serial (request 0b011#3) :: [] ∧
    decodeRequest (request 0b011#3) = .ok .setSink ∧
    decodeRequest (request 0b001#3) = .ok (.engineActionWord 0 0) ∧ isCodec (.engineActionWord 0 0) = true :=
  ⟨rfl, rfl, rfl, rfl, rfl⟩

/-- Every clause of the emit step: each byte index, the last frame and one before it, a ready and a stalled sink. -/
theorem witness_FramedEmitStep :
    ∀ n ∈ [1#5, 2#5, 30#5], ∀ b ∈ [0#2, 1#2, 2#2], ∀ ready ∈ [[], [false], [true]], ∀ tail,
      let s := { at26 true n b [] with sinkReady := ready, sinkTail := tail }
      (s.snkReady = if ready = [] then tail else ready == [true]) ∧
      s.busy = true ∧ s.raw = false ∧ 0 < s.repCnt.toNat ∧ s.byteIdx.toNat ≤ 2 ∧ s.undisturbed = true := by decide

/-- A raw burst in progress. -/
def rawAt (i : Nat) : State :=
  { idle true with busy := true, raw := true, reqRaw := [0xFE#8, 0x42#8], rawIdx := i, burst := [0xFE#8].take i }

theorem witness_RawSteps :
    (∀ i ∈ [0, 1], (rawAt i).busy = true ∧ (rawAt i).raw = true ∧
      (rawAt i).reqRaw[(rawAt i).rawIdx]? = [0xFE#8, 0x42#8][i]? ∧ (rawAt i).undisturbed = true) ∧
    (rawAt 0).rawIdx + 1 < (rawAt 0).reqRaw.length ∧ (rawAt 1).rawIdx + 1 = (rawAt 1).reqRaw.length ∧
    (request 0b110#3).op = 0b110#3 := by decide

theorem witness_FlushStep :
    (at26 true 0 0 []).phase = .flush ∧ (at26 true 0 0 []).undisturbed = true ∧
    (rawAt 2).phase = .flush ∧ (rawAt 2).undisturbed = true := by decide

theorem witness_BusyBlock :
    (busyWith [.serial twoFrames]).busy = true ∧ (busyWith [.serial twoFrames]).phase = .emit ∧
    ∃ t, step (busyWith [.serial twoFrames]) = .next t :=
  ⟨rfl, by decide, _, rfl⟩

/-- A state in phase IDLE with one frame sent, one entity and a request presented. -/
def sentOne (pending : List Input) : State :=
  { idle true with
    sinkTrace := [.write [0xFE#8, 0x00#8, 0x9C#8], .flush]
    engines := [⟨some 1, some 18, some 18, none⟩]
    pending := pending }

/-- It meets the invariant. -/
theorem witness_idle_invariant (pending : List Input) : (sentOne pending).Inv where
  repCnt_le := by simp [sentOne, idle, State.reset]
  byteIdx_le := by simp [sentOne, idle, State.reset]
  idle := fun _ => ⟨rfl, rfl, rfl, rfl⟩
  framedFlush := fun h => by cases h
  framedBurst := fun h => by cases h
  rawBurst := fun h => by cases h
  noSink := fun h => by cases h
  wholeTrace := fun _ => ⟨[[0xFE#8, 0x00#8, 0x9C#8]], by simp [NonEmptyBursts], rfl⟩
  flushTrace := fun h => by simp [State.phase, sentOne, Tests.idle, State.reset] at h
  speeds := by intro E hE; simp [sentOne] at hE; subst hE; decide

/-- So does a state in the middle of a burst. -/
theorem witness_burst_invariant : (busyWith []).Inv where
  repCnt_le := by decide
  byteIdx_le := by decide
  idle := fun h => by cases h
  framedFlush := fun _ _ h => by revert h; decide
  framedBurst := fun _ _ => ⟨2, by decide, by decide, by decide⟩
  rawBurst := fun _ h => by cases h
  noSink := fun h => by cases h
  wholeTrace := fun _ => ⟨[], by simp [NonEmptyBursts], rfl⟩
  flushTrace := fun h => absurd h (by decide)
  speeds := by intro E hE; simp [busyWith, at26, Tests.idle, State.reset] at hE

theorem witness_EveryStepKeepsTheInvariant : ∃ t, (busyWith []).Inv ∧ step (busyWith []) = .next t :=
  ⟨_, witness_burst_invariant, rfl⟩

theorem witness_IdleBlockHasHandedOver : (sentOne []).Inv ∧ (sentOne []).busy = false :=
  ⟨witness_idle_invariant _, rfl⟩

/-- A sink that is ready once its list is spent is ready infinitely often. -/
theorem witness_SinkFair (pending : List Input) : (sentOne pending).SinkFair := (State.sinkFair_iff _).2 rfl

/-- Each framed operation on the port: SEND_FRAME, SEND_FRAME_REPEATED and SYSTEM_HALT. -/
theorem witness_ByteSerialRun :
    ∀ op ∈ [0b100#3, 0b101#3, 0b111#3],
      let r : Request := { twoFrames with op := op }
      (sentOne [.serial r]).Inv ∧ (sentOne [.serial r]).busy = false ∧ (sentOne [.serial r]).sinkEn = true ∧
      (sentOne [.serial r]).pending = [.serial r] ∧ (sentOne [.serial r]).SinkFair ∧ r.op = op :=
  fun _ _ => ⟨witness_idle_invariant _, rfl, rfl, rfl, witness_SinkFair _, rfl⟩

theorem witness_ByteSerialRawRun :
    let r : Request := { request 0b110#3 with raw := [0xFE#8] }
    (sentOne [.serial r]).Inv ∧ (sentOne [.serial r]).busy = false ∧ (sentOne [.serial r]).sinkEn = true ∧
    (sentOne [.serial r]).pending = [.serial r] ∧ (sentOne [.serial r]).SinkFair ∧ r.op = 0b110#3 ∧
    1 ≤ r.raw.length ∧ r.raw.length ≤ Config.rawMax :=
  ⟨witness_idle_invariant _, rfl, rfl, rfl, witness_SinkFair _, rfl, by decide, by simp [Config.rawMax]⟩

/-- A framed and a raw burst before a sink that is never ready again. -/
theorem witness_StalledBurst :
    (({ busyWith [] with sinkTail := false } : State).phase = .emit ∧
      ({ busyWith [] with sinkTail := false } : State).undisturbed = true ∧
      ({ busyWith [] with sinkTail := false } : State).SinkStuck) ∧
    (({ rawAt 1 with sinkTail := false } : State).phase = .emit ∧
      ({ rawAt 1 with sinkTail := false } : State).undisturbed = true ∧
      ({ rawAt 1 with sinkTail := false } : State).SinkStuck) :=
  ⟨⟨by decide, rfl, fun _ => rfl⟩, ⟨by decide, rfl, fun _ => rfl⟩⟩

/-- The empty raw list, and one a byte longer than `RAW_MAX`, on the port and in a record. -/
theorem witness_RawListsOutOfRange :
    ∀ raw ∈ [[], List.replicate (Config.rawMax + 1) (0#8 : Byte)],
      let r : Request := { request 0b110#3 with raw := raw }
      r.op = 0b110#3 ∧ (r.raw = [] ∨ Config.rawMax < r.raw.length) ∧
      (presented false (.serial r)).busy = false ∧ (presented false (.serial r)).pending = .serial r :: [] ∧
      (presented true (.record (reqRecord r))).pending = .record (reqRecord r) :: [] ∧
      (presented true (.record ([0x07#8, 11#8] ++ r.raw))).pending = .record ([0x07#8, 11#8] ++ r.raw) :: [] := by
  intro raw h
  refine ⟨rfl, ?_, rfl, rfl, rfl, rfl⟩
  rcases List.mem_cons.1 h with h | h
  · exact .inl h
  · rw [List.mem_singleton.1 h]; right; simp

end Sys2Proof.Tests
end

/-! What every instruction and every step keep of the state: the sink, the traces, the sequencer and the entities; and
the invariant at reset. Each obligation is read off the case lemmas `exec_cases`, `execCall_cases`, `tick_cases`,
`acceptInstr_cases` and `step_cases`. -/

namespace Sys2Proof.Machine

/-! ### The sink (R22, R151) -/

theorem exec_of_attaches {i : Instr} (h : attaches i = true) (s : State) : exec i s = .next s.attachSink := by
  simp only [attaches, Bool.or_eq_true, decide_eq_true_eq] at h
  obtain rfl | rfl := h <;> rfl

theorem exec_sinkEn {i : Instr} {s t : State} (h : exec i s = .next t) : t.sinkEn = (s.sinkEn || attaches i) := by
  cases ha : attaches i
  · obtain ⟨w, rfl⟩ | ⟨ha', -⟩ | ⟨bytes, -, rfl⟩ | ⟨e, E, w, bytes, -, -, -, rfl | ⟨F, -, rfl⟩⟩ := exec_cases h
    · simp
    · simp [ha] at ha'
    all_goals simp
  · rw [exec_of_attaches ha] at h; cases h; simp

theorem execCall_sinkEn {c : Call} {s t : State} (h : execCall c s = .next t) : t.sinkEn = s.sinkEn := by
  obtain ⟨engines, rfl, -⟩ | ⟨v, rfl⟩ | ⟨w, rfl⟩ := execCall_cases h
  · rfl
  · rfl
  · simp

theorem State.tick_sinkEn (s : State) : s.tick.sinkEn = s.sinkEn := by
  obtain ⟨-, h⟩ | ⟨-, h⟩ | ⟨-, h⟩ | ⟨-, -, -, h⟩ | ⟨-, -, -, -, h⟩ | ⟨b, -, -, -, -, h⟩ | ⟨b, -, -, -, -, h⟩ :=
    s.tick_cases <;> rw [h]

theorem State.acceptInstr_sinkEn {i : Instr} {s t : State} (h : s.acceptInstr i = .next t) :
    t.sinkEn = s.sinkEn ∨ (t.sinkEn = true ∧ attaches i = true) := by
  obtain h | ⟨-, rfl⟩ | ⟨-, w, n, -, -, rfl⟩ | ⟨-, bytes, -, rfl⟩ := State.acceptInstr_cases h
  · rw [exec_sinkEn h]; cases attaches i <;> simp
  all_goals exact .inl rfl

/-- Only the op code of SET_SINK gives an instruction that attaches the sink (R96, R151). -/
theorem op_of_decodeRequest_attaches {r : Request} {i : Instr} (h : decodeRequest r = .ok i)
    (ha : attaches i = true) : r.op = 0b011#3 := by
  unfold decodeRequest at h
  split_ifs at h with hmake haction hspeed hsink hframe hreps hraw
  · unfold withType at h; split at h <;> cases h; simp [attaches] at ha
  · cases h; simp [attaches] at ha
  · cases h; simp [attaches] at ha
  · exact hsink
  · cases h; simp [attaches] at ha
  · cases h; simp [attaches] at ha
  · unfold withRaw at h; split at h <;> cases h; simp [attaches] at ha
  · cases h; simp [attaches] at ha

/-- A step keeps `sink_en`, or sets it by SET_SINK in phase IDLE, or takes the reset input. -/
theorem step_sinkEn_cases {s t : State} (h : step s = .next t) :
    t.sinkEn = s.sinkEn ∨ (s.busy = false ∧ ∃ rest, s.pending = .reset :: rest ∨ (t.sinkEn = true ∧
      ((∃ r : Request, s.pending = .serial r :: rest ∧ r.op = 0b011#3) ∨
        ∃ bytes i, s.pending = .record bytes :: rest ∧ decode bytes = .ok i ∧ attaches i = true))) := by
  obtain ⟨-, -, rfl⟩ | ⟨hb, hidle⟩ := step_cases h
  · exact .inl s.tick_sinkEn
  obtain ⟨-, rfl⟩ | ⟨bytes, rest, i, hp, hd, hx⟩ | ⟨r, rest, i, hp, hd, hx⟩ | ⟨c, rest, -, hx⟩ | ⟨rest, hp, -⟩ |
    ⟨rest, -, rfl⟩ := hidle
  · exact .inl rfl
  · have hsink := exec_sinkEn hx
    cases ha : attaches i
    · exact .inl (by simpa [ha] using hsink)
    · exact .inr ⟨hb, rest, .inr ⟨by simpa [ha] using hsink, .inr ⟨bytes, i, hp, hd, ha⟩⟩⟩
  · obtain hsink | ⟨hsink, ha⟩ := State.acceptInstr_sinkEn hx
    · exact .inl hsink
    · exact .inr ⟨hb, rest, .inr ⟨hsink, .inl ⟨r, hp, op_of_decodeRequest_attaches hd ha⟩⟩⟩
  · exact .inl (by simpa using execCall_sinkEn hx)
  · exact .inr ⟨hb, rest, .inl hp⟩
  · exact .inl rfl

/-- Settles O31: a step that changes `sink_en` is one of the cases of `step_sinkEn_cases`, and only reset clears it. -/
theorem onlySetSinkWritesSinkEn : Obligations.OnlySetSinkWritesSinkEn := by
  refine ⟨fun i s t => exec_sinkEn, fun s t hreset hs h => ?_, fun s t h hne => ?_⟩
  · obtain heq | ⟨-, rest, hp | ⟨ht, -⟩⟩ := step_sinkEn_cases h
    · rw [heq, hs]
    · exact absurd hp (hreset rest)
    · exact ht
  · obtain heq | ⟨hb, rest, hp | ⟨-, hp⟩⟩ := step_sinkEn_cases h
    · exact absurd heq hne
    · exact ⟨hb, rest, .inl hp⟩
    · exact ⟨hb, rest, .inr hp⟩

/-! ### The traces and the responses (R12, R26) -/

theorem State.Extends.of_pending {s t : State} {rest : List Input} (h : t.Extends { s with pending := rest }) :
    t.Extends s := h

theorem State.unsent_extends (s : State) : s.unsent.Extends s := by simp [State.Extends, State.unsent]

theorem State.attachSink_extends (s : State) : s.attachSink.Extends s := by simp [State.Extends]

theorem exec_extends {i : Instr} {s t : State} (h : exec i s = .next t) : t.Extends s := by
  have codecThenTransmit (w : Word) (bytes : List Byte) : ((s.answered w).transmit bytes true).Extends s :=
    (s.answered_extends w).trans (State.transmit_extends _ _ _)
  obtain ⟨w, rfl⟩ | ⟨-, rfl⟩ | ⟨bytes, -, rfl⟩ | ⟨e, E, w, bytes, -, -, -, rfl | ⟨F, -, rfl⟩⟩ := exec_cases h
  · exact s.answered_extends w
  · exact s.attachSink_extends
  · exact s.transmit_extends bytes true
  · exact codecThenTransmit w bytes
  · exact codecThenTransmit w bytes

theorem execCall_extends {c : Call} {s t : State} (h : execCall c s = .next t) : t.Extends s := by
  obtain ⟨engines, rfl, -⟩ | ⟨v, rfl⟩ | ⟨w, rfl⟩ := execCall_cases h
  · exact .refl s
  · exact .refl s
  · exact (s.transmit_extends _ _).trans ((State.answered_extends _ w).trans (State.transmit_extends _ _ _))

theorem State.tick_extends (s : State) : s.tick.Extends s := by
  obtain ⟨-, h⟩ | ⟨-, h⟩ | ⟨-, h⟩ | ⟨-, -, -, h⟩ | ⟨-, -, -, -, h⟩ | ⟨b, -, -, -, -, h⟩ | ⟨b, -, -, -, -, h⟩ :=
    s.tick_cases <;> rw [h] <;> simp [State.Extends]

theorem State.acceptInstr_extends {i : Instr} {s t : State} (h : s.acceptInstr i = .next t) : t.Extends s := by
  obtain h | ⟨-, rfl⟩ | ⟨-, w, n, -, -, rfl⟩ | ⟨-, bytes, -, rfl⟩ := State.acceptInstr_cases h
  · exact exec_extends h
  · exact s.unsent_extends
  · exact .refl s
  · exact .refl s

/-- Settles O32: taking an input from the queue touches no trace, and what is then done with it only appends. -/
theorem tracesAreOnlyAppendedTo : Obligations.TracesAreOnlyAppendedTo := by
  intro s t hreset h
  obtain ⟨-, -, rfl⟩ | ⟨-, hidle⟩ := step_cases h
  · exact s.tick_extends
  obtain ⟨-, rfl⟩ | ⟨bytes, rest, i, -, -, hx⟩ | ⟨r, rest, i, -, -, hx⟩ | ⟨c, rest, -, hx⟩ | ⟨rest, hp, -⟩ |
    ⟨rest, -, rfl⟩ := hidle
  · exact .refl t
  · exact (exec_extends hx).of_pending
  · exact (State.acceptInstr_extends hx).of_pending
  · exact (execCall_extends hx).of_pending
  · exact absurd hp (hreset rest)
  · exact .refl s

/-! ### The sequencer and the entities (R24, R35) -/

/-- Settles O33: none of the shapes of `exec_cases` writes a register of the sequencer, and there is no fault (R288). -/
theorem instructionsLeaveTheSequencerAlone : Obligations.InstructionsLeaveTheSequencerAlone := by
  refine fun i s => ⟨nofun, fun t h => ?_⟩
  obtain ⟨w, rfl⟩ | ⟨-, rfl⟩ | ⟨bytes, -, rfl⟩ | ⟨e, E, w, bytes, -, -, -, rfl | ⟨F, -, rfl⟩⟩ := exec_cases h
  · simp [State.answered]
  · simp
  · simp
  · simp [State.answered]
  · simp [State.answered]

/-- An instruction leaves the entities as they are, or replaces the one it acts on. -/
theorem exec_engines {i : Instr} {s t : State} (h : exec i s = .next t) :
    t.engines = s.engines ∨ ∃ e E F, entity i = some e ∧ s.engines[e]? = some E ∧ keepsEngine E F ∧
      t.engines = s.engines.set e F := by
  obtain ⟨w, rfl⟩ | ⟨-, rfl⟩ | ⟨bytes, -, rfl⟩ | ⟨e, E, w, bytes, he, hE, -, rfl | ⟨F, hF, rfl⟩⟩ := exec_cases h
  case inr.inr.inr.inr => exact .inr ⟨e, E, F, he, hE, hF, by simp⟩
  all_goals exact .inl (by simp)

/-- Settles O43: replacing the entity acted on leaves the others, and the replacement keeps address and maximum. -/
theorem entitiesAreIndependent : Obligations.EntitiesAreIndependent := by
  intro i s t h
  obtain heq | ⟨e, E₀, F₀, he, hE₀, ⟨haddr, hmax, -⟩, heq⟩ := exec_engines h
  · rw [heq]
    refine ⟨fun _ _ => rfl, rfl, fun k E F hE hF => ?_⟩
    obtain rfl : E = F := Option.some_inj.1 (hE.symm.trans hF)
    exact ⟨rfl, rfl⟩
  · rw [heq]
    refine ⟨fun k hk => List.getElem?_set_ne (by rintro rfl; exact hk he), List.length_set, fun k E F hE hF => ?_⟩
    by_cases hk : e = k
    · subst hk
      obtain rfl : E₀ = E := Option.some_inj.1 (hE₀.symm.trans hE)
      obtain rfl : F₀ = F := by simpa [List.getElem?_set_self', hE] using hF
      exact ⟨haddr, hmax⟩
    · rw [List.getElem?_set_ne hk, hE] at hF
      cases hF; exact ⟨rfl, rfl⟩

/-! ### After a failed operation (R38) -/

/-- A run from `s` to `u` and one from `t` to `v` add the same diagnostics and responses, and `u` and `v` differ in
those two lists alone. -/
def AddsAlike (s t u v : State) : Prop :=
  ∃ diags rsps, u.diagTrace = s.diagTrace ++ diags ∧ u.responses = s.responses ++ rsps ∧
    v = { u with diagTrace := t.diagTrace ++ diags, responses := t.responses ++ rsps }

namespace AddsAlike

variable {s t u v : State}

theorem unsent (s : State) : AddsAlike s s.unsent s s.unsent := ⟨[], [], by simp [State.unsent]⟩

theorem engines_eq (h : AddsAlike s t u v) : v.engines = u.engines := by
  obtain ⟨_, _, -, -, rfl⟩ := h; rfl

theorem answered (h : AddsAlike s t u v) (w : Word) : AddsAlike s t (u.answered w) (v.answered w) := by
  obtain ⟨diags, rsps, hd, hr, rfl⟩ := h
  exact ⟨diags, rsps ++ [⟨.ok, some w⟩], by simp [State.answered, hd, hr]⟩

theorem attachSink (h : AddsAlike s t u v) : AddsAlike s t u.attachSink v.attachSink := by
  obtain ⟨diags, rsps, hd, hr, rfl⟩ := h
  exact ⟨diags, rsps ++ [⟨.ok, none⟩], by simp [State.attachSink, State.respond, hd, hr]⟩

theorem transmit (h : AddsAlike s t u v) (bytes : List Byte) :
    AddsAlike s t (u.transmit bytes true) (v.transmit bytes true) := by
  obtain ⟨diags, rsps, hd, hr, rfl⟩ := h
  cases hs : u.sinkEn
  · exact ⟨diags ++ [.noSink], rsps ++ [⟨.unavailable, none⟩], by simp [State.transmit_unsent, hs, State.unsent, hd, hr]⟩
  · exact ⟨diags, rsps ++ [⟨.ok, none⟩], by simp [State.transmit_sent, hs, State.sent, hd, hr]⟩

/-- Whether a setter updates its entity depends on the sink and on FACADE_UPDATE_ON_UNAVAILABLE alone (log 7). -/
theorem updateEngine (h : AddsAlike s t u v) (e : Nat) (E : Engine) :
    AddsAlike s t (u.updateEngine e E) (v.updateEngine e E) := by
  obtain ⟨diags, rsps, hd, hr, rfl⟩ := h
  refine ⟨diags, rsps, ?_⟩
  unfold State.updateEngine
  split <;> simp [State.putEngine, hd, hr]

end AddsAlike

/-- Two states that differ in the diagnostic trace and the responses alone take every instruction alike. -/
theorem exec_alike (i : Instr) {s t : State} (h : AddsAlike s t s t) :
    (∃ r, exec i s = .refused r ∧ exec i t = .refused r) ∨
    (∃ u v, exec i s = .next u ∧ exec i t = .next v ∧ AddsAlike s t u v) := by
  cases he : entity i with
  | none =>
    obtain ⟨-, -, w, hx⟩ | ⟨-, -, hx⟩ | ⟨-, -, bytes, -, hx⟩ | ⟨-, r, hx⟩ := exec_withoutEntity he
    · exact .inr ⟨_, _, hx s, hx t, h.answered w⟩
    · exact .inr ⟨_, _, hx s, hx t, h.attachSink⟩
    · exact .inr ⟨_, _, hx s, hx t, h.transmit bytes⟩
    · exact .inl ⟨r, hx s, hx t⟩
  | some e =>
    have ht : t.engines = s.engines := h.engines_eq
    obtain ⟨r, hx⟩ | ⟨E, w, bytes, -, -, hx | ⟨F, -, hx⟩⟩ := exec_onEntity he s.engines
    · exact .inl ⟨r, hx s rfl, hx t ht⟩
    · exact .inr ⟨_, _, hx s rfl, hx t ht, (h.answered w).transmit bytes⟩
    · exact .inr ⟨_, _, hx s rfl, hx t ht, ((h.answered w).transmit bytes).updateEngine e F⟩

/-- Settles O29: without a sink a transmit operation gives `s.unsent`, and the next instruction runs alike from there. -/
theorem failedOperationLeavesTheNextOneAlone : Obligations.FailedOperationLeavesTheNextOneAlone := by
  intro i j hi hfits s t hs h
  obtain ⟨bytes, -, hx⟩ := exec_transmits hi hfits
  obtain rfl : s.unsent = t := by simpa [State.transmit_unsent bytes true hs, h] using (hx s).symm
  refine ⟨rfl, rfl, fun u hu => ?_, fun r hr => ?_⟩
  · obtain ⟨r, hr, -⟩ | ⟨u', v, hu', hv, halike⟩ := exec_alike j (.unsent s)
    · rw [hr] at hu; cases hu
    · rw [hu'] at hu; cases hu
      exact ⟨v, hv, halike⟩
  · obtain ⟨r', hr', ht⟩ | ⟨u, v, hu, -⟩ := exec_alike j (.unsent s)
    · rw [hr'] at hr; cases hr; exact ht
    · rw [hu] at hr; cases hr

/-! ### The invariant at reset, and what it says in phase IDLE (R37, R60) -/

/-- Settles O51: no burst is in progress, the trace holds no operation and there is no entity. -/
theorem resetMeetsTheInvariant : Obligations.ResetMeetsTheInvariant where
  repCnt_le := by decide
  byteIdx_le := by decide
  idle _ := ⟨rfl, rfl, rfl, rfl⟩
  framedFlush := nofun
  framedBurst := nofun
  rawBurst := nofun
  noSink _ := ⟨rfl, rfl⟩
  wholeTrace _ := ⟨[], nofun, rfl⟩
  flushTrace := nofun
  speeds := nofun

/-- Every operation ends with a flush, so nothing written is left waiting for one. -/
theorem handedStream_wholeBursts (bursts : List (List Byte)) :
    handedStream (wholeBursts bursts) = wireStream (wholeBursts bursts) := by
  induction bursts with
  | nil => rfl
  | cons bytes rest ih => exact congrArg (bytes ++ ·) ih

/-- Settles O53: outside phase FLUSH the invariant makes the trace a run of whole operations. -/
theorem idleBlockHasHandedOverEveryByte : Obligations.IdleBlockHasHandedOverEveryByte := by
  intro s hinv hb
  have hphase : s.phase ≠ .flush := by simp [s.phase_idle_iff.2 hb]
  obtain ⟨bursts, -, htrace⟩ := hinv.wholeTrace hphase
  rw [htrace, handedStream_wholeBursts]

end Sys2Proof.Machine

/-! What a step in phase IDLE does with the record or the call presented next (R59), and the host's word read as the
record that `withFetchWord` presents (log 3, log 4). -/

namespace Sys2Proof.Machine

section
variable {s : State} {rest : List Input}

theorem step_record (hb : s.busy = false) {bytes : List Byte} (hp : s.pending = .record bytes :: rest) :
    step s = ({ s with pending := rest } : State).performRecord bytes := by
  simp [step, hb, State.takeInput, hp]

theorem step_call (hb : s.busy = false) {c : Call} (hp : s.pending = .call c :: rest) :
    step s = execCall c { s with pending := rest } := by
  simp [step, hb, State.takeInput, hp]

end

theorem State.performRecord_of_decode {bytes : List Byte} {i : Instr} (h : decode bytes = .ok i) (s : State) :
    s.performRecord bytes = exec i s := by
  simp [State.performRecord, h]

theorem State.performRecord_of_undecodable {bytes : List Byte} {e : DecodeError} (h : decode bytes = .error e)
    (s : State) : s.performRecord bytes = .refused (.undecodable e) := by
  simp [State.performRecord, h]

theorem decodeTableWord_eq_some_iff {nbits w : Nat} {i : Instr} :
    decodeTableWord nbits w = some i ↔ decode (tableRecord nbits w) = .ok i := by
  unfold decodeTableWord
  cases decode (tableRecord nbits w) <;> simp

/-- The step after `withFetchWord` performs the word's record on `s.toIdle`: taking it restores the queue of `s`. -/
theorem step_withFetchWord (s : State) (nbits w : Nat) :
    step (s.withFetchWord nbits w) = s.toIdle.performRecord (tableRecord nbits w) :=
  step_record rfl rfl

/-- Settles O3: `step_record` and `step_call` take the input; what the record does is read off its decoding. -/
theorem stepRunsTheDecodedInstruction : Obligations.StepRunsTheDecodedInstruction := by
  refine ⟨fun s bytes rest i hb hp hd => ?_, fun s bytes rest e hb hp hd => ?_, fun s c rest hb hp => step_call hb hp,
    fun s nbits w i hd => ?_⟩
  · rw [step_record hb hp, State.performRecord_of_decode hd]
  · rw [step_record hb hp, State.performRecord_of_undecodable hd]
  · rw [step_withFetchWord, State.performRecord_of_decode (decodeTableWord_eq_some_iff.1 hd)]

end Sys2Proof.Machine

/-! Records (30_encoding.md; log 1): what a request decodes to, and for each format of a record that it decodes to the
row it was written for. -/

namespace Sys2Proof

open Sys2Proof.Machine

/-! ### Requests (R96 to R98) -/

@[simp] theorem withType_code (t : ObjectType) (k : ObjectType → Instr) : withType t.code k = .ok (k t) := by
  simp [withType]

theorem withType_reserved {code : BitVec 3} (h : 5 ≤ code.toNat) (k : ObjectType → Instr) :
    withType code k = .error (.reservedType code.toNat) := by
  simp [withType, ObjectType.ofCode_eq_none h]

theorem withRaw_of_lengthOk {raw : List Byte} (h : rawLengthOk raw.length = true) (i : Instr) :
    withRaw raw i = .ok i := by
  simp [withRaw, h]

theorem decodeRequest_makeWord {r : Request} {t : ObjectType} (hop : r.op = 0b000#3) (ht : r.type = t.code) :
    decodeRequest r = .ok (.makeWord t r.addr.toNat (CmdClass.ofCode r.cls) r.data.toNat) := by
  simp [decodeRequest, hop, ht]

theorem decodeRequest_engineActionWord {r : Request} (h : r.op = 0b001#3) :
    decodeRequest r = .ok (.engineActionWord r.addr.toNat r.data.toNat) := by
  simp [decodeRequest, h]

theorem decodeRequest_engineSpeedWord {r : Request} (h : r.op = 0b010#3) :
    decodeRequest r = .ok (.engineSpeedWord r.addr.toNat r.data.toNat) := by
  simp [decodeRequest, h]

theorem decodeRequest_reservedType {r : Request} (hop : r.op = 0b000#3) (ht : 5 ≤ r.type.toNat) :
    decodeRequest r = .error (.reservedType r.type.toNat) := by
  simp [decodeRequest, hop, withType_reserved ht]

/-! ### Records of one word (R55, R92) -/

theorem decodeTwo_word (k : Word → Except DecodeError Instr) (w : Word) :
    decodeTwo k [BitVec.ofNat 8 (w.toNat / 256), BitVec.ofNat 8 w.toNat] = k w := by
  rw [decodeTwo_number k w.isLt, BitVec.ofNat_toNat, BitVec.setWidth_eq]

theorem decode_wordRecord_word (w : Word) : decode (wordRecord .word w.toNat) = decodeWord w :=
  decodeTwo_word decodeWord w

theorem decode_wordRecord_make (w : Word) : decode (wordRecord .make w.toNat) = decodeMake w :=
  decodeTwo_word decodeMake w

theorem decode_wordRecord_engine (w : Word) : decode (wordRecord .engine w.toNat) = decodeEngine w :=
  decodeTwo_word decodeEngine w

theorem fitsWord_iff {width a d : Nat} : fitsWord width a d = true ↔ a < 2 ^ width ∧ d < 32 := by simp [fitsWord]

/-- The row `MAKE_WORD.<type>` of an object type (R122 to R126). -/
def ObjectType.makeRow (t : ObjectType) (a : Nat) (c : CmdClass) (d : Nat) : Instr :=
  match t with
  | .engine => .makeWordEngine a c d
  | .switch => .makeWordSwitch a c d
  | .accessory => .makeWordAccessory a c d
  | .train => .makeWordTrain a c d
  | .route => .makeWordRoute a c d

section
variable {t : ObjectType} {a d : Nat} {c : CmdClass}

theorem decode_makeRecord (h : fitsWord (typeAddressWidth t) a d = true) :
    decode (wordRecord .make (fieldsNumber (typeBase t) a c d)) = .ok (t.makeRow a c d) := by
  obtain ⟨ha, hd⟩ := fitsWord_iff.1 h
  rw [fieldsNumber_eq ha hd, decode_wordRecord_make, decodeMake, readWord_makeWord ha hd]
  cases t <;> rfl

theorem engineNumber_eq (ha : a < 2 ^ 7) (hd : d < 32) :
    fieldsNumber 0x0000 a c d = (makeWord .engine a c d).toNat :=
  fieldsNumber_eq (t := .engine) ha hd

theorem decode_engineActionRecord (h : fitsWord 7 a d = true) :
    decode (wordRecord .engine (fieldsNumber 0x0000 a .action d)) = .ok (.engineActionWordWord a d) := by
  obtain ⟨ha, hd⟩ := fitsWord_iff.1 h
  rw [engineNumber_eq ha hd, decode_wordRecord_engine, decodeEngine, readWord_makeWord ha hd]

theorem decode_engineSpeedRecord (h : fitsWord 7 a d = true) :
    decode (wordRecord .engine (fieldsNumber 0x0000 a .absoluteSpeed d)) = .ok (.engineSpeedWordWord a d) := by
  obtain ⟨ha, hd⟩ := fitsWord_iff.1 h
  rw [engineNumber_eq ha hd, decode_wordRecord_engine, decodeEngine, readWord_makeWord ha hd]

/-- The word of a named action is read as its row: the reader gives the Engine, the data field the code (R221). -/
theorem decodeAct_makeWord (act : EngineAction) (ha : a < 2 ^ 7) :
    decodeAct (makeWord .engine a .action act.code.toNat) = .ok (act.instr a) := by
  rw [decodeAct, readWord_makeWord ha act.code.isLt, makeWord_data, BitVec.ofNat_toNat, BitVec.setWidth_eq,
    EngineAction.ofCode_code]

theorem decode_actRecord (act : EngineAction) (h : fitsWord 7 a 0 = true) :
    decode (actRecord act a) = .ok (act.instr a) := by
  obtain ⟨ha, -⟩ := fitsWord_iff.1 h
  rw [actRecord, engineNumber_eq ha act.code.isLt, decode_wordRecord_word,
    decodeWord, if_neg (makeWord_ne_halt _ _ _ _), decodeAct_makeWord act ha]

/-! ### Records of a class or a type code (R86, R98; log 2) -/

theorem ObjectType.code_setWidth (t : ObjectType) :
    (t.code.setWidth 8).toNat < 8 ∧ (t.code.setWidth 8).setWidth 3 = t.code := by cases t <;> decide

theorem CmdClass.code_setWidth (c : CmdClass) :
    (c.code.setWidth 8).toNat < 4 ∧ (c.code.setWidth 8).setWidth 2 = c.code := by cases c <;> decide

theorem bytes_ofNat_toNat (h : (fitsPort a && fitsPort d) = true) :
    (BitVec.ofNat 8 a).toNat = a ∧ (BitVec.ofNat 8 d).toNat = d := by
  obtain ⟨ha, hd⟩ := Bool.and_eq_true_iff.1 h
  exact ⟨byte_ofNat_toNat ha, byte_ofNat_toNat hd⟩

theorem decode_classRecord (c : CmdClass) (t : ObjectType) (h : (fitsPort a && fitsPort d) = true) :
    decode (classRecord c t a d) = .ok (c.instr t a d) := by
  obtain ⟨hc, hcode⟩ := c.code_setWidth
  obtain ⟨ht, htype⟩ := t.code_setWidth
  obtain ⟨ha, hd⟩ := bytes_ofNat_toNat h
  change decodeClass [_, _, _, _] = _
  rw [decodeClass, if_pos ⟨hc, ht⟩, htype, withType_code, hcode, CmdClass.ofCode_code, ha, hd]

theorem decode_typeRecord (t : ObjectType) (c : CmdClass) (h : (fitsPort a && fitsPort d) = true) :
    decode (typeRecord t a c d) = .ok (t.instr a c d) := by
  obtain ⟨hc, hcode⟩ := c.code_setWidth
  obtain ⟨ht, htype⟩ := t.code_setWidth
  obtain ⟨ha, hd⟩ := bytes_ofNat_toNat h
  change decodeType [_, _, _, _] = _
  rw [decodeType, if_pos ⟨ht, hc⟩, htype, withType_code, hcode, CmdClass.ofCode_code, ha, hd]

end

/-! ### Records of a facade row (R103; log 1) -/

theorem engineIndex_bytes {e : Nat} (h : fitsIndex e = true) :
    engineIndex (BitVec.ofNat 8 (e / 256)) (BitVec.ofNat 8 e) = e := by
  simp [fitsIndex] at h
  simp [engineIndex]; omega

theorem decode_facadeRecord (row : Byte) (e : Nat) (rest : List Byte) :
    decode (facadeRecord row e rest) = decodeFacade (row :: BitVec.ofNat 8 (e / 256) :: BitVec.ofNat 8 e :: rest) := rfl

/-- Settles O6: the instruction's format picks the lemma about its records. -/
theorem decodeOfEncodeIsTheInstruction : Obligations.DecodeOfEncodeIsTheInstruction := by
  intro i h
  cases i
  case makeWord t a c d =>
    obtain ⟨ha, hd⟩ := bytes_ofNat_toNat h
    rw [encode, decode_reqRecord, decodeRequest_makeWord rfl rfl, CmdClass.ofCode_code, ha, hd]
  case engineActionWord a d =>
    obtain ⟨ha, hd⟩ := bytes_ofNat_toNat h
    rw [encode, decode_reqRecord, decodeRequest_engineActionWord rfl, ha, hd]
  case engineSpeedWord a v =>
    obtain ⟨ha, hv⟩ := bytes_ofNat_toNat h
    rw [encode, decode_reqRecord, decodeRequest_engineSpeedWord rfl, ha, hv]
  case setSink | systemHalt | sendFrame w => exact decode_reqRecord _
  case sendFrameRepeated w n =>
    rw [encode, decode_reqRecord, decodeRequest_sendFrameRepeated rfl, byte_ofNat_toNat h]
  case sendRawBytes raw =>
    have hraw : rawLengthOk raw.length = true := h
    rw [encode, decode_reqRecord, decodeRequest_sendRawBytes rfl hraw]
  case makeWordEngine a c d => exact decode_makeRecord (t := .engine) h
  case makeWordSwitch a c d => exact decode_makeRecord (t := .switch) h
  case makeWordAccessory a c d => exact decode_makeRecord (t := .accessory) h
  case makeWordTrain a c d => exact decode_makeRecord (t := .train) h
  case makeWordRoute a c d => exact decode_makeRecord (t := .route) h
  case engineActionWordWord a d => exact decode_engineActionRecord h
  case engineSpeedWordWord a d => exact decode_engineSpeedRecord h
  case haltWord | frame hi lo | facadeAttachSink | facadeSystemHalt => rfl
  case classAction t a d | classExtended t a d | classRelativeSpeed t a d | classAbsoluteSpeed t a d =>
    exact decode_classRecord _ t h
  case typeEngine a c d | typeSwitch a c d | typeAccessory a c d | typeTrain a c d | typeRoute a c d =>
    exact decode_typeRecord _ c h
  case facadeSetSpeed e v =>
    obtain ⟨he, hv⟩ := Bool.and_eq_true_iff.1 h
    simp [encode, decode_facadeRecord, decodeFacade, engineIndex_bytes he, byte_ofNat_toNat hv]
  case facadeRawBurst raw => exact withRaw_of_lengthOk h _
  case facadeSetDirectionForward e | facadeSetDirectionReverse e | facadeOpenFrontCoupler e | facadeOpenRearCoupler e |
      facadeBoost e | facadeBrake e | facadeBlowHorn e | facadeRingBell e =>
    simp [encode, decode_facadeRecord, decodeFacade, engineIndex_bytes h]
  -- The nineteen rows ACT.<name>.
  all_goals exact decode_actRecord _ h

end Sys2Proof

/-! The reading of words and frames, and the rows that are forms of MAKE_WORD and of the sends, said through the numbers
of R120: a word is assigned exactly when it is one of these numbers, and a frame is read by the word in it. -/

namespace Sys2Proof

open Sys2Proof.Machine

/-! ### The reader of words (R85, R90) -/

theorem readWord_eq_none_iff (w : Word) : readWord w = none ↔ Unassigned w := by
  have hw := w.isLt
  simp only [readWord, Unassigned, ← BitVec.toNat_inj, extract_toNat, BitVec.toNat_ofNat]
  -- One case for each test of the leading bits, and the one where every test fails.
  split_ifs <;> simp only [false_iff, true_iff] <;> omega

/-- What the reader answers is in range and packs back into the word (R120). -/
theorem wordNumber_of_readWord {w : Word} {f : WordFields} (h : readWord w = some f) :
    f.address < 2 ^ typeAddressWidth f.type ∧ f.data < 32 ∧ w.toNat = wordNumber f.type f.address f.cls f.data := by
  have hw := w.isLt
  simp only [readWord, ← BitVec.toNat_inj, extract_toNat, BitVec.toNat_ofNat] at h
  split_ifs at h <;> cases h <;>
    simp only [wordNumber, typeBase, typeAddressWidth, classNumber_ofCode, extract_toNat] <;> omega

theorem readWord_eq_some_iff (w : Word) (f : WordFields) :
    readWord w = some f ↔
      f.address < 2 ^ typeAddressWidth f.type ∧ f.data < 32 ∧ w.toNat = wordNumber f.type f.address f.cls f.data := by
  refine ⟨wordNumber_of_readWord, fun ⟨ha, hd, hn⟩ => ?_⟩
  have hw : w = makeWord f.type f.address f.cls f.data := by
    apply BitVec.eq_of_toNat_eq; rw [hn, makeWord_toNat]
  rw [hw, readWord_makeWord ha hd]

/-- Settles O17: an unassigned word is one that no test of the leading bits takes, and the fields read are those the
number is made of. -/
theorem wordHasAtMostOneReading : Obligations.WordHasAtMostOneReading :=
  fun w => ⟨readWord_eq_none_iff w, readWord_eq_some_iff w⟩

/-! ### The decoder of the block's output (R104) -/

theorem readFrame_halt (rest : List Byte) : readFrame (frameBytes haltWord ++ rest) = .halt := rfl

section
variable {w : Word} (hhalt : w ≠ 0xFFFF#16) (rest : List Byte)
include hhalt

theorem readFrame_of_readWord_some {f : WordFields} (h : readWord w = some f) :
    readFrame (frameNumbers w ++ rest) = .assigned f := by
  simp [readFrame, frameNumbers, bytes_append, hhalt, h]

theorem readFrame_of_readWord_none (h : readWord w = none) : readFrame (frameNumbers w ++ rest) = .unassigned := by
  simp [readFrame, frameNumbers, bytes_append, hhalt, h]

end

theorem readFrame_makeWord {t : ObjectType} {a d : Nat} {c : CmdClass} (ha : a < 2 ^ typeAddressWidth t) (hd : d < 32)
    (rest : List Byte) : readFrame (frameNumbers (makeWord t a c d) ++ rest) = .assigned ⟨t, a, c, d⟩ :=
  readFrame_of_readWord_some (makeWord_ne_halt t a c d) rest (readWord_makeWord ha hd)

/-- A burst of at least one frame begins with the frame of its word (R93). -/
theorem burstBytes_eq_frame_append (w : Word) {n : Nat} (h : 0 < n) : ∃ rest, burstBytes w n = frameBytes w ++ rest := by
  obtain ⟨m, rfl⟩ := Nat.exists_eq_succ_of_ne_zero h.ne'
  exact ⟨burstBytes w m, burstBytes_succ w m⟩

theorem readFrame_of_ne_header {header : Byte} (h : header ≠ 0xFE#8) (rest : List Byte) :
    readFrame (header :: rest) = .noFrame := by
  match rest with
  | [] | [_] => rfl
  | _ :: _ :: _ => simp [readFrame, h]

theorem readFrame_of_length_lt {bytes : List Byte} (h : bytes.length < 3) : readFrame bytes = .noFrame := by
  match bytes, h with
  | [], _ | [_], _ | [_, _], _ => rfl

end Sys2Proof

namespace Sys2Proof.Machine

/-- Settles O16: a frame and a burst are read by the word of the first frame, whose reading O17 gives. -/
theorem outputDecoderRecoversTheOperands : Obligations.OutputDecoderRecoversTheOperands := by
  refine ⟨fun t a c d s ha hd => ⟨makeWord t a c d, rfl, readFrame_makeWord ha hd, fun n hs => ?_⟩, fun s hs => ?_,
    fun w rest hw hhalt => readFrame_of_readWord_none hhalt rest ((readWord_eq_none_iff w).2 hw),
    fun header rest hne => readFrame_of_ne_header hne rest, fun bytes hlen => readFrame_of_length_lt hlen⟩
  · refine ⟨_, congrArg Host.Outcome.next (State.transmit_sent _ hs), ?_⟩
    obtain ⟨rest, hburst⟩ := burstBytes_eq_frame_append (makeWord t a c d) (repetitions_pos n)
    rw [hburst, frameBytes_eq, readFrame_makeWord ha hd]
  · refine ⟨_, congrArg Host.Outcome.next (State.transmit_sent _ hs), ?_⟩
    obtain ⟨rest, hburst⟩ := burstBytes_eq_frame_append haltWord (n := haltReps) (by decide)
    rw [hburst, readFrame_halt]

/-! ### Requests of MAKE_WORD (R98) -/

theorem step_record_undecodable {s : State} {bytes : List Byte} {rest : List Input} {e : DecodeError}
    (hb : s.busy = false) (hp : s.pending = .record bytes :: rest) (hd : decode bytes = .error e) :
    step s = .refused (.undecodable e) := by
  rw [step_record hb hp, State.performRecord_of_undecodable hd]

theorem step_serial_undecodable {s : State} {r : Request} {rest : List Input} {e : DecodeError}
    (hb : s.busy = false) (hp : s.pending = .serial r :: rest) (hd : decodeRequest r = .error e) :
    step s = .refused (.undecodable e) := by
  simp [step, hb, State.takeInput, hp, State.acceptRequest, hd]

/-- Settles O7: a record of a request decodes as the request does, so port and record agree on every type code. -/
theorem objectTypeCodesAndReservedCodes : Obligations.ObjectTypeCodesAndReservedCodes := by
  refine ⟨fun t r hop ht => ?_, ⟨rfl, rfl, rfl, rfl, rfl⟩, fun r s rest hop ht hb => ?_⟩
  · rw [decode_reqRecord]
    exact ⟨decodeRequest_makeWord hop ht, decodeRequest_makeWord hop ht⟩
  · have hd := decodeRequest_reservedType hop ht
    exact ⟨fun hp => step_serial_undecodable hb hp hd,
      fun hp => step_record_undecodable hb hp ((decode_reqRecord r).trans hd)⟩

/-! ### The rows CLASS and TYPE (R86, R98; log 2) -/

theorem exec_classRow (c : CmdClass) (t : ObjectType) (a d : Nat) (s : State) :
    exec (c.instr t a d) s = .next (s.answered (makeWord t a c d)) := by cases c <;> rfl

theorem exec_typeRow (t : ObjectType) (a : Nat) (c : CmdClass) (d : Nat) (s : State) :
    exec (t.instr a c d) s = .next (s.answered (makeWord t a c d)) := by cases t <;> rfl

/-- Settles O10: every row answers the word of MAKE_WORD with its class or its type. -/
theorem classAndTypeRowsPerformMakeWord : Obligations.ClassAndTypeRowsPerformMakeWord := by
  intro t a c d s
  have classRow (k : CmdClass) : ∃ w : Word, exec (k.instr t a d) s = .next (s.answered w) ∧
      w.toNat = wordNumber t a k d ∧ w.extractLsb' 5 2 = k.code :=
    ⟨makeWord t a k d, exec_classRow k t a d s, makeWord_toNat t a k d, makeWord_class t a k d⟩
  have typeRow (u : ObjectType) : ∃ w : Word, exec (u.instr a c d) s = .next (s.answered w) ∧
      w.toNat = wordNumber u a c d :=
    ⟨makeWord u a c d, exec_typeRow u a c d s, makeWord_toNat u a c d⟩
  exact ⟨classRow .action, classRow .extended, classRow .relativeSpeed, classRow .absoluteSpeed,
    typeRow .engine, typeRow .switch, typeRow .accessory, typeRow .train, typeRow .route⟩

/-! ### The header byte in a word (R95, R120) -/

/-- The low byte of a word holds address bit 0, the class and the data. -/
theorem wordNumber_mod_256 (t : ObjectType) (a : Nat) (c : CmdClass) (d : Nat) :
    wordNumber t a c d % 256 = a % 2 * 128 + classNumber c * 32 + d % 32 := by
  have hc := classNumber_lt c
  cases t <;> simp only [wordNumber, typeBase, typeAddressWidth] <;> omega

/-- No word of MAKE_WORD begins with the bits `111` (R90). -/
theorem wordNumber_lt (t : ObjectType) (a : Nat) (c : CmdClass) (d : Nat) : wordNumber t a c d < 0xE000 := by
  have hc := classNumber_lt c
  cases t <;> simp only [wordNumber, typeBase, typeAddressWidth] <;> omega

/-- Settles O19: `0xFE` in the low byte is an odd address, class number 3 and data 30; as a high byte it is beyond every
word of MAKE_WORD. -/
theorem headerByteInsideAWord : Obligations.HeaderByteInsideAWord := by
  intro t a c d s
  refine ⟨makeWord t a c d, rfl, ?_, ?_⟩
  · have hclass : c = .absoluteSpeed ↔ classNumber c = 3 := by cases c <;> decide
    have hc := classNumber_lt c
    rw [makeWord_toNat, wordNumber_mod_256, hclass]
    omega
  · have hlt := wordNumber_lt t a c d
    rw [makeWord_toNat]
    omega

/-! ### The rows FRAME and HALT_WORD (R92, R155; log 2) -/

theorem exec_frame (high low : Byte) (s : State) :
    exec (.frame high low) s = .next (s.transmit [0xFE#8, high, low] true) := by
  rw [← frameBytes_append]; rfl

theorem exec_haltWord (s : State) : exec .haltWord s = .next (s.transmit (burstBytes haltWord 10) true) := rfl

/-- Settles O22: each row is one transmit, of the frame shown or of the burst of ten halt frames. -/
theorem frameAndHaltWordRowsSend : Obligations.FrameAndHaltWordRowsSend := by
  refine ⟨fun high low s => ?_, fun s => ?_⟩
  · rw [exec_frame]
    exact ⟨fun hs => by rw [State.transmit_sent _ hs], fun hs => by rw [State.transmit_unsent _ _ hs]⟩
  · rw [exec_haltWord]
    exact ⟨fun hs => ⟨burstBytes haltWord 10, by rw [State.transmit_sent _ hs], burstBytes_length haltWord 10,
      fun k hk => burstBytes_frame haltWord hk⟩, fun hs => by rw [State.transmit_unsent _ _ hs]⟩

/-! ### Table words (R81 to R83, R92, R96, R103; log 3) -/

/-- Settles O5: each is a fixed word, read by running the decoder. -/
theorem specWordsDecodeToTheirRows : Obligations.SpecWordsDecodeToTheirRows := by
  unfold Obligations.SpecWordsDecodeToTheirRows
  decide

end Sys2Proof.Machine

/-! The words the codec operations answer: the fields of a word of MAKE_WORD (R120 to R126, R130, R131), which words it
returns (R127, R128), and that a codec row touches nothing but its response (R132). -/

namespace Sys2Proof.Machine

/-! ### Fields of a word (R84, R120) -/

section
variable (t : ObjectType) (a : Nat) (c : CmdClass) (d : Nat)

/-- MAKE_WORD reduces its operands by their masks (R128). -/
theorem makeWord_mod : makeWord t (a % 2 ^ typeAddressWidth t) c (d % 32) = makeWord t a c d := by
  apply BitVec.eq_of_toNat_eq
  simp only [makeWord_toNat, wordNumber, Nat.mod_mod]

theorem makeWord_address :
    (makeWord t a c d).extractLsb' 7 (typeAddressWidth t) = BitVec.ofNat (typeAddressWidth t) a := by
  have hc := classNumber_lt c
  apply BitVec.eq_of_toNat_eq
  rw [extract_toNat, makeWord_toNat, BitVec.toNat_ofNat]
  cases t <;> simp only [wordNumber, typeBase, typeAddressWidth] <;> omega

/-- Above the address stand the leading bits of BASE (R85, R120). -/
theorem makeWord_leadingBits :
    (makeWord t a c d).extractLsb' (7 + typeAddressWidth t) (9 - typeAddressWidth t) =
      BitVec.ofNat (9 - typeAddressWidth t) (typeBase t / 2 ^ (7 + typeAddressWidth t)) := by
  have hc := classNumber_lt c
  apply BitVec.eq_of_toNat_eq
  rw [extract_toNat, makeWord_toNat, BitVec.toNat_ofNat]
  cases t <;> simp only [wordNumber, typeBase, typeAddressWidth] <;> omega

end

/-- The layout of every Engine word, with the address and the data as numbers (R122, R130, R131). -/
theorem makeWord_engine_fields (a : Nat) (c : CmdClass) (d : Nat) :
    (makeWord .engine a c d).extractLsb' 14 2 = 0b00#2 ∧
    ((makeWord .engine a c d).extractLsb' 7 7).toNat = a % 128 ∧
    (makeWord .engine a c d).extractLsb' 5 2 = c.code ∧
    ((makeWord .engine a c d).extractLsb' 0 5).toNat = d % 32 :=
  ⟨makeWord_leadingBits .engine a c d, congrArg BitVec.toNat (makeWord_address .engine a c d),
    makeWord_class .engine a c d, congrArg BitVec.toNat (makeWord_data .engine a c d)⟩

/-! ### The answer of MAKE_WORD and of its forms (R120 to R126) -/

theorem exec_makeWord (t : ObjectType) (a : Nat) (c : CmdClass) (d : Nat) (s : State) :
    exec (.makeWord t a c d) s = .next (s.answered (makeWord t a c d)) := rfl

theorem exec_makeRow (t : ObjectType) (a : Nat) (c : CmdClass) (d : Nat) (s : State) :
    exec (t.makeRow a c d) s = .next (s.answered (makeWord t a c d)) := by cases t <;> rfl

/-- Settles O8: the word MAKE_WORD packs is the number of R120. -/
theorem makeWordGivesTheNumericWord : Obligations.MakeWordGivesTheNumericWord :=
  fun t a c d s => ⟨makeWord t a c d, exec_makeWord t a c d s, makeWord_toNat t a c d⟩

/-- Settles O9: each form answers the word of MAKE_WORD with its type, whose four fields are read off. -/
theorem objectTypeFormsPackTheirFields : Obligations.ObjectTypeFormsPackTheirFields := by
  intro a c d s
  have form (t : ObjectType) : ∃ w : Word, exec (t.makeRow a c d) s = .next (s.answered w) ∧
      w.extractLsb' (7 + typeAddressWidth t) (9 - typeAddressWidth t) =
        BitVec.ofNat (9 - typeAddressWidth t) (typeBase t / 2 ^ (7 + typeAddressWidth t)) ∧
      w.extractLsb' 7 (typeAddressWidth t) = BitVec.ofNat (typeAddressWidth t) a ∧
      w.extractLsb' 5 2 = c.code ∧ w.extractLsb' 0 5 = BitVec.ofNat 5 d :=
    ⟨makeWord t a c d, exec_makeRow t a c d s, makeWord_leadingBits t a c d, makeWord_address t a c d,
      makeWord_class t a c d, makeWord_data t a c d⟩
  exact ⟨form .engine, form .switch, form .accessory, form .train, form .route⟩

/-! ### The Engine words (R130, R131) -/

/-- Settles O11: request, word row and MAKE_WORD answer one Engine word of class Action. -/
theorem engineActionWordLayout : Obligations.EngineActionWordLayout :=
  fun a d _ => ⟨actionWord a d, rfl, rfl, rfl, makeWord_engine_fields a .action d⟩

/-- Settles O12: the clamped speed fits the data field, so the mask leaves it as it is. -/
theorem engineSpeedWordSaturates : Obligations.EngineSpeedWordSaturates := by
  intro a v s
  obtain ⟨hleading, haddress, hclass, hdata⟩ := makeWord_engine_fields a .absoluteSpeed (min v 31)
  have hspeed : min v 31 % 32 = min v 31 := Nat.mod_eq_of_lt (by omega)
  refine ⟨speedWord a v, rfl, rfl, ?_⟩
  rw [speedWord_eq]
  exact ⟨rfl, hleading, haddress, hclass, hdata.trans hspeed⟩

/-! ### Which words MAKE_WORD returns (R127, R128) -/

theorem State.answered_inj {s : State} {w w' : Word} : s.answered w = s.answered w' ↔ w = w' :=
  ⟨fun h => by simpa using congrArg State.responses h, fun h => h ▸ rfl⟩

theorem exec_makeWord_eq_answered_iff {t : ObjectType} {a d : Nat} {c : CmdClass} {s : State} {w : Word} :
    exec (.makeWord t a c d) s = .next (s.answered w) ↔ makeWord t a c d = w := by
  rw [exec_makeWord, Host.Outcome.next.injEq, State.answered_inj]

/-- The words of MAKE_WORD are those that have a reading. -/
theorem exists_makeWord_eq_iff (w : Word) : (∃ t a c d, makeWord t a c d = w) ↔ ¬ Unassigned w := by
  rw [← readWord_eq_none_iff, ← ne_eq, Option.ne_none_iff_exists']
  constructor
  · rintro ⟨t, a, c, d, rfl⟩
    rw [← makeWord_mod]
    exact ⟨_, readWord_makeWord (Nat.mod_lt _ (by positivity)) (Nat.mod_lt _ (by decide))⟩
  · rintro ⟨f, hf⟩
    obtain ⟨-, -, hn⟩ := wordNumber_of_readWord hf
    exact ⟨f.type, f.address, f.cls, f.data, BitVec.eq_of_toNat_eq ((makeWord_toNat _ _ _ _).trans hn.symm)⟩

theorem not_unassigned_iff (w : Word) : ¬ Unassigned w ↔
    w.toNat ≤ 0xBFFF ∨ (0xC800 ≤ w.toNat ∧ w.toNat ≤ 0xCFFF) ∨ (0xD000 ≤ w.toNat ∧ w.toNat ≤ 0xDFFF) := by
  unfold Unassigned
  omega

/-- Settles O14: a word answered is a word of MAKE_WORD, in whatever state, and these are the ones not unassigned. -/
theorem makeWordReturnsExactlyTheAssignedWords : Obligations.MakeWordReturnsExactlyTheAssignedWords := by
  intro w
  have : Nonempty State := ⟨State.reset⟩
  simp only [ne_eq, exec_makeWord_eq_answered_iff, forall_const, ← not_unassigned_iff]
  exact ⟨exists_makeWord_eq_iff w, fun hw t a c d h => (exists_makeWord_eq_iff w).1 ⟨t, a, c, d, h⟩ hw⟩

/-- Settles O15: equal outcomes hold equal words, and the number of a word gives back operands in range. -/
theorem makeWordIsLosslessInRange : Obligations.MakeWordIsLosslessInRange := by
  refine ⟨fun t a c d t' a' c' d' s ha hd ha' hd' h => ?_, fun t a c d s => ?_,
    fun t a c d => ⟨makeWord t a c d, exec_makeWord t a c d⟩⟩
  · rw [exec_makeWord t', exec_makeWord_eq_answered_iff] at h
    have hn := congrArg BitVec.toNat h
    rw [makeWord_toNat, makeWord_toNat] at hn
    exact wordNumber_injective ha hd ha' hd' hn
  · rw [exec_makeWord, exec_makeWord, makeWord_mod]

/-! ### The frame of the codec rows (R132; log 2) -/

/-- Settles O18: the word each codec row answers, a function of its operands; the other rows are no codec rows. -/
theorem codecOperationsTouchNothing : Obligations.CodecOperationsTouchNothing := by
  intro i h
  cases i
  case makeWord t a c d => exact ⟨makeWord t a c d, exec_makeWord t a c d⟩
  case engineActionWord a d | engineActionWordWord a d => exact ⟨actionWord a d, fun _ => rfl⟩
  case engineSpeedWord a v | engineSpeedWordWord a v => exact ⟨speedWord a v, fun _ => rfl⟩
  case makeWordEngine a c d | typeEngine a c d => exact ⟨makeWord .engine a c d, fun _ => rfl⟩
  case makeWordSwitch a c d | typeSwitch a c d => exact ⟨makeWord .switch a c d, fun _ => rfl⟩
  case makeWordAccessory a c d | typeAccessory a c d => exact ⟨makeWord .accessory a c d, fun _ => rfl⟩
  case makeWordTrain a c d | typeTrain a c d => exact ⟨makeWord .train a c d, fun _ => rfl⟩
  case makeWordRoute a c d | typeRoute a c d => exact ⟨makeWord .route a c d, fun _ => rfl⟩
  case classAction t a d => exact ⟨makeWord t a .action d, exec_classRow .action t a d⟩
  case classExtended t a d => exact ⟨makeWord t a .extended d, exec_classRow .extended t a d⟩
  case classRelativeSpeed t a d => exact ⟨makeWord t a .relativeSpeed d, exec_classRow .relativeSpeed t a d⟩
  case classAbsoluteSpeed t a d => exact ⟨makeWord t a .absoluteSpeed d, exec_classRow .absoluteSpeed t a d⟩
  case setSink | sendFrame | sendFrameRepeated | sendRawBytes | systemHalt | haltWord | frame | facadeSetSpeed |
      facadeSetDirectionForward | facadeSetDirectionReverse | facadeOpenFrontCoupler | facadeOpenRearCoupler |
      facadeBoost | facadeBrake | facadeBlowHorn | facadeRingBell | facadeAttachSink | facadeSystemHalt |
      facadeRawBurst => cases h
  -- The nineteen rows ACT.<name>: the Engine action word of their code.
  all_goals exact ⟨actionWord _ (EngineAction.code _).toNat, fun _ => rfl⟩

end Sys2Proof.Machine

/-! The frame transmitter: what each transmit operation hands to the sink (R150 to R156, R239, R240), the raw lists it
takes (R156, D12), and that only `sink_en` bears on what an operation does (R161). -/

namespace Sys2Proof

/-- A raw list of no byte or of more than `RAW_MAX` is out of range (R156). -/
theorem rawLengthOk_eq_false_iff (raw : List Byte) :
    rawLengthOk raw.length = false ↔ raw = [] ∨ Config.rawMax < raw.length := by
  rw [← Bool.not_eq_true, Machine.rawLengthOk_iff, ← List.length_eq_zero_iff]
  omega

/-! ### Raw requests (R96, R156) -/

section
variable {raw : List Byte} (h : rawLengthOk raw.length = false)
include h

theorem withRaw_of_lengthOk_eq_false (i : Instr) : withRaw raw i = .error (.rawLength raw.length) := by
  simp [withRaw, h]

theorem decode_rawBurstRecord_rawLength : decode ([0x07#8, 11#8] ++ raw) = .error (.rawLength raw.length) :=
  withRaw_of_lengthOk_eq_false h (.facadeRawBurst raw)

end

theorem decodeRequest_rawLength {r : Request} (h : rawLengthOk r.raw.length = false) (hop : r.op = 0b110#3) :
    decodeRequest r = .error (.rawLength r.raw.length) := by
  simp [decodeRequest, hop, withRaw_of_lengthOk_eq_false h]

end Sys2Proof

namespace Sys2Proof.Machine

/-- Settles O59: the decoder refuses the list, on the port, in the record of the request, and in a record of
FACADE.raw_burst. -/
theorem rawListsOutOfRangeAreRefused : Obligations.RawListsOutOfRangeAreRefused := by
  intro s r rest hb hop hrange
  have hraw := (rawLengthOk_eq_false_iff r.raw).2 hrange
  have hd := decodeRequest_rawLength hraw hop
  exact ⟨fun hp => step_serial_undecodable hb hp hd,
    fun hp => step_record_undecodable hb hp ((decode_reqRecord r).trans hd),
    fun hp => step_record_undecodable hb hp (decode_rawBurstRecord_rawLength hraw)⟩

/-! ### Each operation as a transmit (R150, R152, R154 to R156) -/

theorem exec_sendFrame (w : Word) (s : State) :
    exec (.sendFrame w) s = .next (s.transmit (frameNumbers w) true) := by
  rw [← frameBytes_eq]; rfl

theorem exec_sendFrameRepeated (w : Word) (n : Nat) (s : State) :
    exec (.sendFrameRepeated w n) s = .next (s.transmit (burstBytes w (max 1 (min n 30))) true) := by
  rw [← repetitions_eq]; rfl

theorem State.rawBurst_of_lengthOk {bytes : List Byte} (h : rawLengthOk bytes.length = true) (s : State) :
    s.rawBurst bytes = .next (s.transmit bytes true) := if_pos h

theorem State.rawBurst_of_lengthOk_eq_false {bytes : List Byte} (h : rawLengthOk bytes.length = false) (s : State) :
    s.rawBurst bytes = .refused (.rawLength bytes.length) := by
  simp [State.rawBurst, h]

section
variable {i : Instr}

theorem exec_of_halts (h : i ∈ [Instr.systemHalt, Instr.facadeSystemHalt]) (s : State) :
    exec i s = .next (s.transmit (burstBytes haltWord 10) true) := by
  simp only [List.mem_cons, List.not_mem_nil, or_false] at h
  obtain rfl | rfl := h <;> rfl

theorem exec_of_rawBursts {bytes : List Byte} (h : i ∈ [Instr.sendRawBytes bytes, Instr.facadeRawBurst bytes])
    (s : State) : exec i s = s.rawBurst bytes := by
  simp only [List.mem_cons, List.not_mem_nil, or_false] at h
  obtain rfl | rfl := h <;> rfl

variable {bytes : List Byte} {s : State} (hx : exec i s = .next (s.transmit bytes true))
include hx

theorem exec_sent_of_transmit (hs : s.sinkEn = true) : exec i s = .next (s.sent bytes) := by
  rw [hx, State.transmit_sent bytes hs]

theorem exec_unsent_of_transmit (hs : s.sinkEn = false) : exec i s = .next s.unsent := by
  rw [hx, State.transmit_unsent bytes true hs]

end

/-! ### What the sink gets -/

/-- Settles O28: every transmit row is one transmit of a list that does not depend on the state. -/
theorem transmitOperationsShareOneShape : Obligations.TransmitOperationsShareOneShape := by
  intro i hi hfits
  obtain ⟨bytes, hne, hx⟩ := exec_transmits hi hfits
  exact ⟨bytes, hne, fun s => ⟨exec_sent_of_transmit (hx s), exec_unsent_of_transmit (hx s)⟩⟩

/-- Settles O21: SEND_FRAME is one transmit of the frame of its word. -/
theorem sendFrameWritesThreeBytesAndFlushes : Obligations.SendFrameWritesThreeBytesAndFlushes := by
  intro w s
  have hx := exec_sendFrame w s
  exact ⟨exec_sent_of_transmit hx, exec_unsent_of_transmit hx⟩

/-- Settles O23: SEND_FRAME_REPEATED is one transmit of the burst of as many frames as the clamped count. -/
theorem sendFrameRepeatedWritesOneBurst : Obligations.SendFrameRepeatedWritesOneBurst := by
  intro w n s
  have hx := exec_sendFrameRepeated w n s
  refine ⟨fun hs => ⟨_, exec_sent_of_transmit hx hs, burstBytes_length w _, fun k hk => ?_⟩,
    exec_unsent_of_transmit hx⟩
  rw [burstBytes_frame w hk, frameBytes_eq]

/-- Settles O25: both rows transmit the burst of ten halt frames, as SEND_FRAME_REPEATED does for these operands. -/
theorem systemHaltWritesTenAllOnesFrames : Obligations.SystemHaltWritesTenAllOnesFrames := by
  intro i hi s
  have hx := exec_of_halts hi s
  exact ⟨fun hs => ⟨_, exec_sent_of_transmit hx hs, burstBytes_length haltWord 10,
    fun k hk => burstBytes_frame haltWord hk⟩, exec_unsent_of_transmit hx,
    hx.trans (exec_sendFrameRepeated 0xFFFF#16 10 s).symm⟩

/-- Settles O26: both rows check the length, then transmit the list itself. -/
theorem sendRawBytesWritesItsOperand : Obligations.SendRawBytesWritesItsOperand := by
  refine ⟨Nat.le_add_left 6 _, fun bytes s i hi => ?_⟩
  have hburst := exec_of_rawBursts hi s
  have hfits (hlo : 1 ≤ bytes.length) (hhi : bytes.length ≤ Config.rawMax) :
      exec i s = .next (s.transmit bytes true) :=
    hburst.trans (State.rawBurst_of_lengthOk ((rawLengthOk_iff _).2 ⟨hlo, hhi⟩) s)
  exact ⟨fun hlo hhi => exec_sent_of_transmit (hfits hlo hhi), fun hlo hhi => exec_unsent_of_transmit (hfits hlo hhi),
    fun hrange => hburst.trans (State.rawBurst_of_lengthOk_eq_false ((rawLengthOk_eq_false_iff _).2 hrange) s)⟩

/-- Settles O24: a burst of one frame is the frame (R153). -/
theorem sendFrameIsTheCountOfOne : Obligations.SendFrameIsTheCountOfOne := by
  intro w s t h
  rw [← h, exec_sendFrameRepeated, exec_sendFrame, ← frameBytes_eq]
  exact congrArg (fun bytes => Host.Outcome.next (s.transmit bytes true)) (burstBytes_one w)

/-! ### The sink, and nothing else of the past (R151, R161) -/

theorem State.attachSink_of_sinkEn {s : State} (h : s.sinkEn = true) : s.attachSink = s.respond .ok none := by
  unfold State.attachSink
  rw [← h]

/-- Settles O20: with a sink attached, setting `sink_en` changes nothing. -/
theorem setSinkAttaches : Obligations.SetSinkAttaches := by
  intro i hi s
  have hx : exec i s = .next s.attachSink := exec_of_attaches (by simpa [attaches] using hi) s
  exact ⟨hx, fun hs => hx.trans (congrArg Host.Outcome.next (State.attachSink_of_sinkEn hs))⟩

/-- Settles O30: a row without an entity is refused in every state, or answers a word, attaches the sink or transmits
a list, the same in every state, and what a transmit adds depends on `sink_en` alone. -/
theorem operationsAreIndependentOfHistory : Obligations.OperationsAreIndependentOfHistory := by
  intro i he s s' t hsink h
  obtain ⟨-, -, w, hx⟩ | ⟨-, -, hx⟩ | ⟨-, -, bytes, -, hx⟩ | ⟨-, r, hx⟩ := exec_withoutEntity he <;>
    rw [hx s] at h <;> cases h
  · exact ⟨_, [], [], [⟨.ok, some w⟩], hx s', by simp [hsink]⟩
  · exact ⟨_, [], [], [⟨.ok, none⟩], hx s', by simp⟩
  · cases hs : s.sinkEn
    · refine ⟨_, [], [.noSink], [⟨.unavailable, none⟩], hx s', ?_⟩
      simp [State.transmit_unattached, hs, ← hsink]
    · refine ⟨_, [.write bytes, .flush], [], [⟨.ok, none⟩], hx s', ?_⟩
      simp [State.transmit_attached, hs, ← hsink]

end Sys2Proof.Machine

/-! The invariant of R199, R52, R60 and R225 is kept: by every instruction and call in phase IDLE, by the accept steps,
by each step of the sequencer, and so by every step. -/

namespace Sys2Proof.Machine

/-! ### Traces of whole operations (R59, R60) -/

/-- A trace of whole operations, none of them empty. -/
def WholeTrace (trace : List SinkEvent) : Prop :=
  ∃ bursts, NonEmptyBursts bursts ∧ trace = wholeBursts bursts

theorem WholeTrace.append_operation {trace : List SinkEvent} {bytes : List Byte} (h : WholeTrace trace)
    (hne : bytes ≠ []) : WholeTrace (trace ++ [.write bytes, .flush]) := by
  obtain ⟨bursts, hbursts, rfl⟩ := h
  refine ⟨bursts ++ [bytes], fun b hb => ?_, by simp [wholeBursts]⟩
  obtain hb | hb := List.mem_append.1 hb
  · exact hbursts b hb
  · rwa [List.mem_singleton.1 hb]

theorem State.Inv.wholeTrace_of_phase_ne {s : State} (h : s.Inv) (hp : s.phase ≠ .flush) : WholeTrace s.sinkTrace :=
  h.wholeTrace hp

theorem State.Inv.wholeTrace_of_idle {s : State} (h : s.Inv) (hb : s.busy = false) : WholeTrace s.sinkTrace :=
  h.wholeTrace (by simp [s.phase_idle_iff.2 hb])

/-- The flush that a write waits for completes its operation. -/
theorem State.Inv.wholeTrace_of_flush {s : State} (h : s.Inv) (hp : s.phase = .flush) :
    WholeTrace (s.sinkTrace ++ [.flush]) := by
  obtain ⟨bursts, bytes, hbursts, hne, htrace⟩ := h.flushTrace hp
  rw [htrace, List.append_assoc]
  exact WholeTrace.append_operation ⟨bursts, hbursts, rfl⟩ hne

/-- A burst in progress has a sink (R52). -/
theorem State.Inv.sinkEn_of_busy {s : State} (h : s.Inv) (hb : s.busy = true) : s.sinkEn = true := by
  by_contra hs
  simp [(h.noSink (by simpa using hs)).1] at hb

/-! ### What the invariant does not read, and what it asks in phase IDLE -/

/-- The diagnostics, the responses, the results, the queue and the sink's readiness are free. -/
theorem State.Inv.of_bookkeeping {s : State} (h : s.Inv) (diags : List Diagnostic) (rsps : List Response)
    (results : List (BitVec 5)) (pending : List Input) (ready : List Bool) (tail : Bool) :
    ({ s with
      diagTrace := diags, responses := rsps, speedResults := results
      pending := pending, sinkReady := ready, sinkTail := tail } : State).Inv :=
  ⟨h.repCnt_le, h.byteIdx_le, h.idle, h.framedFlush, h.framedBurst, h.rawBurst, h.noSink, h.wholeTrace, h.flushTrace,
    h.speeds⟩

theorem State.Inv.of_pending {s : State} (h : s.Inv) (pending : List Input) :
    ({ s with pending := pending } : State).Inv := h.of_bookkeeping _ _ _ pending _ _

theorem State.Inv.of_engines {s : State} (h : s.Inv) {engines : List Engine}
    (hspeeds : ∀ E ∈ engines, E.speedOk = true) : ({ s with engines := engines } : State).Inv :=
  ⟨h.repCnt_le, h.byteIdx_le, h.idle, h.framedFlush, h.framedBurst, h.rawBurst, h.noSink, h.wholeTrace, h.flushTrace,
    hspeeds⟩

/-- In phase IDLE the invariant asks for the position zero, a trace of whole operations that is empty without a sink,
and speeds within their maxima. -/
theorem State.inv_of_idle {s : State} (hb : s.busy = false)
    (hpos : s.repCnt = 0#5 ∧ s.byteIdx = 0#2 ∧ s.rawIdx = 0 ∧ s.burst = [])
    (hsink : s.sinkEn = false → s.sinkTrace = []) (htrace : WholeTrace s.sinkTrace)
    (hspeeds : ∀ E ∈ s.engines, E.speedOk = true) : s.Inv where
  repCnt_le := by simp [hpos.1]
  byteIdx_le := by simp [hpos.2.1]
  idle _ := hpos
  framedFlush h := by simp [hb] at h
  framedBurst h := by simp [hb] at h
  rawBurst h := by simp [hb] at h
  noSink h := ⟨hb, hsink h⟩
  wholeTrace _ := htrace
  flushTrace h := by simp [s.phase_idle_iff.2 hb] at h
  speeds := hspeeds

/-! ### What it asks in the phases of a burst -/

section
variable {s : State}

/-- In phase EMIT of a framed burst: the counters in range, and the burst the beginning of whole frames. -/
theorem State.inv_of_framedEmit (hb : s.busy = true) (hw : s.raw = false) (hs : s.sinkEn = true)
    (hrep : 0 < s.repCnt.toNat) (hrep' : s.repCnt.toNat ≤ 30) (hidx : s.byteIdx.toNat ≤ 2)
    (hburst : ∃ n, n ≤ 30 ∧ s.bytesLeft ≤ 3 * n ∧ s.burst = (burstBytes s.wordReg n).take (3 * n - s.bytesLeft))
    (htrace : WholeTrace s.sinkTrace) (hspeeds : ∀ E ∈ s.engines, E.speedOk = true) : s.Inv where
  repCnt_le := hrep'
  byteIdx_le := hidx
  idle h := by simp [hb] at h
  framedFlush _ _ h := by simp [h] at hrep
  framedBurst _ _ := by
    have hleft : s.bytesLeft ≠ 0 := by unfold State.bytesLeft; omega
    simpa [hleft] using hburst
  rawBurst _ h := by simp [hw] at h
  noSink h := by simp [hs] at h
  wholeTrace _ := htrace
  flushTrace h := by simp [State.phase_framed hb hw, hrep] at h
  speeds := hspeeds

/-- In phase EMIT of a raw burst: the framed position zero, and the burst the beginning of the list held. -/
theorem State.inv_of_rawEmit (hb : s.busy = true) (hw : s.raw = true) (hs : s.sinkEn = true)
    (hrep : s.repCnt = 0#5) (hidx : s.byteIdx = 0#2) (hlen : rawLengthOk s.reqRaw.length = true)
    (hlt : s.rawIdx < s.reqRaw.length) (hburst : s.burst = s.reqRaw.take s.rawIdx)
    (htrace : WholeTrace s.sinkTrace) (hspeeds : ∀ E ∈ s.engines, E.speedOk = true) : s.Inv where
  repCnt_le := by simp [hrep]
  byteIdx_le := by simp [hidx]
  idle h := by simp [hb] at h
  framedFlush _ h := by simp [hw] at h
  framedBurst _ h := by simp [hw] at h
  rawBurst _ _ := ⟨hrep, hidx, hlen, hlt.le, by rw [if_neg hlt.ne, hburst]⟩
  noSink h := by simp [hs] at h
  wholeTrace _ := htrace
  flushTrace h := by simp [State.phase_raw hb hw, hlt] at h
  speeds := hspeeds

/-- In phase FLUSH: the framed position zero, nothing left of the burst, and one write that waits for its flush. -/
theorem State.inv_of_flush (hp : s.phase = .flush) (hs : s.sinkEn = true)
    (hrep : s.repCnt = 0#5) (hidx : s.byteIdx = 0#2) (hburst : s.burst = [])
    (hraw : s.raw = true → rawLengthOk s.reqRaw.length = true ∧ s.rawIdx = s.reqRaw.length)
    {trace : List SinkEvent} {bytes : List Byte} (htrace : WholeTrace trace) (hne : bytes ≠ [])
    (hwrite : s.sinkTrace = trace ++ [.write bytes]) (hspeeds : ∀ E ∈ s.engines, E.speedOk = true) : s.Inv where
  repCnt_le := by simp [hrep]
  byteIdx_le := by simp [hidx]
  idle h := by simp [State.busy_of_flush hp] at h
  framedFlush _ _ _ := hidx
  framedBurst _ _ := ⟨0, by omega, by simp [State.bytesLeft, hrep], by simp [hburst]⟩
  rawBurst _ h := by
    obtain ⟨hlen, hend⟩ := hraw h
    exact ⟨hrep, hidx, hlen, hend.le, by rw [if_pos hend, hburst]⟩
  noSink h := by simp [hs] at h
  wholeTrace h := absurd hp h
  flushTrace _ := by
    obtain ⟨bursts, hbursts, rfl⟩ := htrace
    exact ⟨bursts, bytes, hbursts, hne, hwrite⟩
  speeds := hspeeds

end

/-- A clamped count fits the repetition counter (R193). -/
theorem State.repCnt_acceptFramed (s : State) {w : Word} {n : Nat} (hn : n ≤ 30) :
    (s.acceptFramed w n).repCnt.toNat = n := Nat.mod_eq_of_lt (by omega)

/-! ### Instructions and calls -/

section
variable {s t : State} (h : s.Inv)
include h

theorem State.Inv.answered (w : Word) : (s.answered w).Inv := h.of_bookkeeping _ _ _ _ _ _

theorem State.Inv.unsent : s.unsent.Inv := h.of_bookkeeping _ _ _ _ _ _

/-- An entity replaced by one that keeps its speed within its maximum. -/
theorem State.Inv.putEngine {e : Nat} {E F : Engine} (hE : s.engines[e]? = some E) (hF : keepsEngine E F) :
    (s.putEngine e F).Inv := by
  obtain ⟨-, -, hspeed⟩ := hF
  refine h.of_engines fun G hG => ?_
  obtain hG | rfl := List.mem_or_eq_of_mem_set hG
  · exact h.speeds G hG
  · exact hspeed (h.speeds E (List.mem_of_getElem? hE))

variable (hb : s.busy = false)
include hb

theorem State.Inv.attachSink : s.attachSink.Inv :=
  State.inv_of_idle hb (h.idle hb) nofun (h.wholeTrace_of_idle hb) h.speeds

theorem State.Inv.transmit {bytes : List Byte} (hne : bytes ≠ []) : (s.transmit bytes true).Inv := by
  cases hs : s.sinkEn
  · rw [State.transmit_unsent bytes true hs]
    exact h.unsent
  · rw [State.transmit_sent bytes hs]
    exact State.inv_of_idle hb (h.idle hb) (by simp [hs]) ((h.wholeTrace_of_idle hb).append_operation hne) h.speeds

theorem State.Inv.exec {i : Instr} (hx : exec i s = .next t) : t.Inv := by
  obtain ⟨w, rfl⟩ | ⟨-, rfl⟩ | ⟨bytes, hne, rfl⟩ | ⟨e, E, w, bytes, -, hE, hne, rfl | ⟨F, hF, rfl⟩⟩ := exec_cases hx
  · exact h.answered w
  · exact h.attachSink hb
  · exact h.transmit hb hne
  · exact (h.answered w).transmit hb hne
  · exact ((h.answered w).transmit hb hne).putEngine (by simpa using hE) hF

theorem State.Inv.execCall {c : Call} (hx : execCall c s = .next t) : t.Inv := by
  obtain ⟨engines, rfl, hspeeds⟩ | ⟨v, rfl⟩ | ⟨w, rfl⟩ := execCall_cases hx
  · exact h.of_engines (hspeeds h.speeds)
  · exact h.of_bookkeeping _ _ _ _ _ _
  · have hpattern : (s.transmit testPatternBytes true).Inv := h.transmit hb (by simp [testPatternBytes])
    exact (hpattern.answered w).transmit (by simpa [State.answered] using hb) (burstBytes_ne_nil (by omega))

/-! ### The accept steps (R193, R198) -/

theorem State.Inv.acceptFramed (hs : s.sinkEn = true) {w : Word} {n : Nat} (hn : 1 ≤ n) (hn' : n ≤ 30) :
    (s.acceptFramed w n).Inv := by
  obtain ⟨-, -, -, hburst⟩ := h.idle hb
  have hcount := s.repCnt_acceptFramed (w := w) hn'
  have hleft : (s.acceptFramed w n).bytesLeft = 3 * n := by
    rw [State.bytesLeft, hcount, State.acceptFramed_byteIdx]; rfl
  exact State.inv_of_framedEmit rfl rfl hs (by omega) (by omega) (by simp)
    ⟨n, hn', hleft.le, by simp [hburst, hleft]⟩ (h.wholeTrace_of_idle hb) h.speeds

theorem State.Inv.acceptRaw (hs : s.sinkEn = true) {bytes : List Byte} (hlen : rawLengthOk bytes.length = true) :
    (s.acceptRaw bytes).Inv := by
  obtain ⟨hrep, hidx, -, hburst⟩ := h.idle hb
  exact State.inv_of_rawEmit rfl rfl hs hrep hidx hlen ((rawLengthOk_iff _).1 hlen).1 (by simp [hburst])
    (h.wholeTrace_of_idle hb) h.speeds

theorem State.Inv.acceptInstr {r : Request} {i : Instr} (hd : decodeRequest r = .ok i)
    (hx : s.acceptInstr i = .next t) : t.Inv := by
  obtain hx | ⟨-, rfl⟩ | ⟨hs, w, n, hn, hn', rfl⟩ | ⟨hs, bytes, rfl, rfl⟩ := State.acceptInstr_cases hx
  · exact h.exec hb hx
  · exact h.unsent
  · exact h.acceptFramed hb hs hn hn'
  · exact h.acceptRaw hb hs (decodeRequest_raw hd)

end

/-! ### The sequencer (R194 to R199) -/

/-- The byte multiplexer offers the byte of the frame at `byte_idx` (R195). -/
theorem State.frameBytes_byteIdx {s : State} (h : s.byteIdx.toNat ≤ 2) :
    (frameBytes s.wordReg)[s.byteIdx.toNat]? = some s.framedByte := by
  have hidx : s.byteIdx = 0#2 ∨ s.byteIdx = 1#2 ∨ s.byteIdx = 2#2 := by bv_omega
  obtain hidx | hidx | hidx := hidx <;> simp [State.framedByte, frameBytes, hidx]

/-- A framed byte that is not the last: the counters after it, and one byte less to come (R194, R199). -/
theorem State.counters_of_framedByte {s t : State} (hrep : 0 < s.repCnt.toNat) (hidx : s.byteIdx.toNat ≤ 2)
    (hl : ¬(s.byteIdx = 2#2 ∧ s.repCnt = 1#5))
    (hi : t.byteIdx = if s.byteIdx.toNat < 2 then s.byteIdx + 1#2 else 0#2)
    (hc : t.repCnt = if s.byteIdx.toNat < 2 then s.repCnt else s.repCnt - 1#5) :
    t.byteIdx.toNat ≤ 2 ∧ 0 < t.repCnt.toNat ∧ t.repCnt.toNat ≤ s.repCnt.toNat ∧ s.bytesLeft = t.bytesLeft + 1 := by
  unfold State.bytesLeft
  by_cases hlt : s.byteIdx.toNat < 2
  · rw [if_pos hlt] at hi hc
    have hi' : t.byteIdx.toNat = s.byteIdx.toNat + 1 := by bv_omega
    rw [hi', hc]
    omega
  · rw [if_neg hlt] at hi hc
    have hlast : s.repCnt ≠ 1#5 := fun hone => hl ⟨by bv_omega, hone⟩
    have hc' : t.repCnt.toNat = s.repCnt.toNat - 1 := by bv_omega
    have hi' : t.byteIdx.toNat = 0 := by simp [hi]
    have hmore : s.repCnt.toNat ≠ 1 := fun hone => hlast (BitVec.eq_of_toNat_eq hone)
    omega

section
variable {s : State} (h : s.Inv)
include h

/-- In phase FLUSH the framed position is zero and nothing is left of the burst (R199). -/
theorem State.Inv.position_of_flush (hp : s.phase = .flush) : s.repCnt = 0#5 ∧ s.byteIdx = 0#2 ∧ s.burst = [] := by
  have hb := State.busy_of_flush hp
  cases hw : s.raw
  · have hrep : s.repCnt = 0#5 := by
      rw [State.phase_framed hb hw] at hp
      split at hp
      · cases hp
      · bv_omega
    obtain ⟨n, -, -, hburst⟩ := h.framedBurst hb hw
    exact ⟨hrep, h.framedFlush hb hw hrep, by simpa [State.bytesLeft, hrep] using hburst⟩
  · obtain ⟨hrep, hidx, -, hle, hburst⟩ := h.rawBurst hb hw
    have hend : s.rawIdx = s.reqRaw.length := by
      rw [State.phase_raw hb hw] at hp
      split at hp
      · cases hp
      · omega
    exact ⟨hrep, hidx, by simpa [hend] using hburst⟩

/-- In phase EMIT of a framed burst the bytes transferred are the beginning of whole frames, and the next byte is the
one the multiplexer offers (R192, R195). -/
theorem State.Inv.framedBurst_of_emit (hp : s.phase = .emit) (hw : s.raw = false) :
    ∃ n, n ≤ 30 ∧ 0 < s.bytesLeft ∧ s.bytesLeft ≤ 3 * n ∧
      s.burst = (burstBytes s.wordReg n).take (3 * n - s.bytesLeft) ∧
      (burstBytes s.wordReg n)[3 * n - s.bytesLeft]? = some s.framedByte := by
  have hrep := State.repCnt_of_emit hw hp
  have hidx := h.byteIdx_le
  obtain ⟨n, hn, hle, hburst⟩ := h.framedBurst (State.busy_of_emit hp) hw
  have hleft : 0 < s.bytesLeft := by unfold State.bytesLeft; omega
  rw [if_neg (by omega)] at hburst
  refine ⟨n, hn, hleft, hle, hburst, ?_⟩
  have hplace : (3 * n - s.bytesLeft) % 3 = s.byteIdx.toNat := by unfold State.bytesLeft at *; omega
  rw [burstBytes_getElem? _ (by omega), hplace, State.frameBytes_byteIdx hidx]

theorem State.Inv.rawBurst_of_emit (hp : s.phase = .emit) (hw : s.raw = true) :
    s.repCnt = 0#5 ∧ s.byteIdx = 0#2 ∧ rawLengthOk s.reqRaw.length = true ∧ s.burst = s.reqRaw.take s.rawIdx := by
  have hlt := State.rawIdx_of_emit hw hp
  obtain ⟨hrep, hidx, hlen, -, hburst⟩ := h.rawBurst (State.busy_of_emit hp) hw
  exact ⟨hrep, hidx, hlen, by rw [hburst, if_neg hlt.ne]⟩

theorem State.Inv.tick : s.tick.Inv := by
  obtain ⟨-, ht⟩ | ⟨hp, ht⟩ | ⟨-, ht⟩ | ⟨hp, hw, hl, ht⟩ | ⟨hp, hw, -, -, ht⟩ | ⟨b, hp, hw, hx, hl, ht⟩ |
    ⟨b, hp, hw, hx, hl, ht⟩ := s.tick_cases
  · rwa [ht]
  · obtain ⟨hrep, hidx, hburst⟩ := h.position_of_flush hp
    have hs := h.sinkEn_of_busy (State.busy_of_flush hp)
    rw [ht]
    exact State.inv_of_idle rfl ⟨hrep, hidx, rfl, hburst⟩ (by simp [hs]) (h.wholeTrace_of_flush hp) h.speeds
  · rw [ht]
    exact h.of_bookkeeping _ _ _ _ _ _
  all_goals
    have hb := State.busy_of_emit hp
    have hs := h.sinkEn_of_busy hb
    have htrace := h.wholeTrace_of_phase_ne (by simp [hp])
  · have hcounters := State.counters_of_framedByte (t := s.tick) (State.repCnt_of_emit hw hp) h.byteIdx_le hl
      (by rw [ht]) (by rw [ht])
    rw [ht] at hcounters ⊢
    obtain ⟨hidx, hrep, hrep', hleft⟩ := hcounters
    obtain ⟨n, hn, hpos, hle, hburst, hbyte⟩ := h.framedBurst_of_emit hp hw
    refine State.inv_of_framedEmit hb hw hs hrep (hrep'.trans h.repCnt_le) hidx ⟨n, hn, by omega, ?_⟩ htrace h.speeds
    rw [show 3 * n - State.bytesLeft _ = 3 * n - s.bytesLeft + 1 by omega, List.take_add_one, hbyte, ← hburst]
    rfl
  · rw [ht]
    exact State.inv_of_flush (by simp [State.phase, State.bytesRemain, hb, hw]) hs rfl rfl rfl (by simp [hw]) htrace
      (by simp) rfl h.speeds
  · obtain ⟨hrep, hidx, hlen, hburst⟩ := h.rawBurst_of_emit hp hw
    have hlt : s.rawIdx + 1 < s.reqRaw.length := by have := State.rawIdx_of_emit hw hp; omega
    rw [ht]
    exact State.inv_of_rawEmit hb hw hs hrep hidx hlen hlt (by rw [List.take_add_one, hx, ← hburst]; rfl) htrace h.speeds
  · obtain ⟨hrep, hidx, hlen, -⟩ := h.rawBurst_of_emit hp hw
    rw [ht]
    exact State.inv_of_flush (by simp [State.phase, State.bytesRemain, hb, hw, hl]) hs hrep hidx rfl
      (fun _ => ⟨hlen, hl⟩) htrace (by simp) rfl h.speeds

end

/-- Settles O52: a step is the sequencer's, or takes an input in phase IDLE and does with it what an instruction, a call
or an accept does, or is a reset; each keeps the invariant. -/
theorem everyStepKeepsTheInvariant : Obligations.EveryStepKeepsTheInvariant := by
  intro s t hinv h
  obtain ⟨-, -, rfl⟩ | ⟨hb, hidle⟩ := step_cases h
  · exact hinv.tick
  obtain ⟨-, rfl⟩ | ⟨bytes, rest, i, -, -, hx⟩ | ⟨r, rest, i, -, hd, hx⟩ | ⟨c, rest, -, hx⟩ | ⟨rest, -, rfl⟩ |
    ⟨rest, -, rfl⟩ := hidle
  · exact hinv
  · exact (hinv.of_pending rest).exec hb hx
  · exact (hinv.of_pending rest).acceptInstr hb hd hx
  · exact (hinv.of_pending rest).execCall hb hx
  · exact State.Inv.of_bookkeeping resetMeetsTheInvariant _ _ _ _ _ _
  · exact hinv.of_pending rest

end Sys2Proof.Machine

/-! The byte-serial sequencer step by step: the accept step of each request (R193, R197, R198, R204), the emit steps
(R194, R195, R198), the flush step (R196), and what a busy block leaves alone (R202). -/

namespace Sys2Proof.Machine

/-! ### Transmit requests on the port -/

/-- The request `r` asks for a framed burst of `n` frames of `w`, the count clamped (R193). -/
def FramedRequest (r : Request) (w : Word) (n : Nat) : Prop :=
  (r.op = 0b100#3 ∧ w = r.word ∧ n = 1) ∨ (r.op = 0b101#3 ∧ w = r.word ∧ n = max 1 (min r.reps.toNat 30)) ∨
    (r.op = 0b111#3 ∧ w = 0xFFFF#16 ∧ n = 10)

section
variable {r : Request} {w : Word} {n : Nat} (h : FramedRequest r w n)
include h

theorem FramedRequest.count_range : 1 ≤ n ∧ n ≤ 30 := by
  obtain ⟨-, -, rfl⟩ | ⟨-, -, rfl⟩ | ⟨-, -, rfl⟩ := h <;> omega

/-- A framed request decodes to an instruction that the port accepts as the burst (R193) and the transaction level
performs as one transmit of it (R152, R154, R155). -/
theorem FramedRequest.decodes : ∃ i, decodeRequest r = .ok i ∧
    (∀ s : State, s.acceptInstr i = .next (s.acceptIfSink (State.acceptFramed w n))) ∧
    ∀ s, exec i s = .next (s.transmit (burstBytes w n) true) := by
  obtain ⟨hop, rfl, rfl⟩ | ⟨hop, rfl, rfl⟩ | ⟨hop, rfl, rfl⟩ := h
  · exact ⟨_, decodeRequest_sendFrame hop, fun _ => rfl, fun _ => by rw [burstBytes_one]; rfl⟩
  · rw [← repetitions_eq]
    exact ⟨_, decodeRequest_sendFrameRepeated hop, fun _ => rfl, fun _ => rfl⟩
  · exact ⟨_, decodeRequest_systemHalt hop, fun _ => rfl, fun _ => rfl⟩

end

section
variable {s : State} {r : Request} {rest : List Input} (hb : s.busy = false) (hp : s.pending = .serial r :: rest)
include hb hp

theorem step_framedRequest {w : Word} {n : Nat} (h : FramedRequest r w n) :
    step s = .next (({ s with pending := rest } : State).acceptIfSink (State.acceptFramed w n)) := by
  obtain ⟨i, hd, haccept, -⟩ := h.decodes
  rw [step_serial_ok hb hp hd, haccept]

theorem step_rawRequest (hop : r.op = 0b110#3) (hlen : rawLengthOk r.raw.length = true) :
    step s = .next (({ s with pending := rest } : State).acceptIfSink (State.acceptRaw r.raw)) := by
  rw [step_serial_ok hb hp (decodeRequest_sendRawBytes hop hlen), State.acceptInstr_sendRawBytes]

/-- With a sink a framed request begins its burst (R193). -/
theorem step_framedRequest_attached (hs : s.sinkEn = true) {w : Word} {n : Nat} (h : FramedRequest r w n) :
    step s = .next (({ s with pending := rest } : State).acceptFramed w n) :=
  (step_framedRequest hb hp h).trans (congrArg Host.Outcome.next (State.acceptIfSink_attached _ hs))

/-- With a sink a raw request begins its burst (R198). -/
theorem step_rawRequest_attached (hs : s.sinkEn = true) (hop : r.op = 0b110#3)
    (hlen : rawLengthOk r.raw.length = true) :
    step s = .next (({ s with pending := rest } : State).acceptRaw r.raw) :=
  (step_rawRequest hb hp hop hlen).trans (congrArg Host.Outcome.next (State.acceptIfSink_attached _ hs))

end

/-- Settles O44: each framed op code is a framed request, whose accept loads the word and the clamped count. -/
theorem framedAcceptLoadsTheCounter : Obligations.FramedAcceptLoadsTheCounter := by
  intro s r rest hb hp hs
  refine ⟨fun hop => ?_, fun hop => ⟨BitVec.ofNat 5 (max 1 (min r.reps.toNat 30)), ?_, ?_⟩, fun hop => ?_⟩
  · exact step_framedRequest_attached hb hp hs (.inl ⟨hop, rfl, rfl⟩)
  · exact Nat.mod_eq_of_lt (by omega)
  · exact step_framedRequest_attached hb hp hs (.inr (.inl ⟨hop, rfl, rfl⟩))
  · exact step_framedRequest_attached hb hp hs (.inr (.inr ⟨hop, rfl, rfl⟩))

/-- Settles O45: every transmit request is accepted if there is a sink, and without one adds a diagnostic and a
response alone. -/
theorem acceptWithoutSinkIsRefused : Obligations.AcceptWithoutSinkIsRefused := by
  intro s r rest hb hp hs hop
  have haccept : ∃ accept, step s = .next (({ s with pending := rest } : State).acceptIfSink accept) := by
    obtain hop | hop | hop | ⟨hop, hlen⟩ := hop
    · exact ⟨_, step_framedRequest hb hp (.inl ⟨hop, rfl, rfl⟩)⟩
    · exact ⟨_, step_framedRequest hb hp (.inr (.inl ⟨hop, rfl, rfl⟩))⟩
    · exact ⟨_, step_framedRequest hb hp (.inr (.inr ⟨hop, rfl, rfl⟩))⟩
    · exact ⟨_, step_rawRequest hb hp hop hlen⟩
  obtain ⟨accept, hstep⟩ := haccept
  have hrefused : step s = .next { s.unsent with pending := rest } :=
    hstep.trans (congrArg Host.Outcome.next (State.acceptIfSink_unattached accept hs))
  refine ⟨hrefused, fun t ht => ?_⟩
  have hphase : t.phase = .idle := by
    rw [hrefused] at ht
    cases ht
    exact (State.phase_idle_iff _).2 hb
  exact ⟨hphase, by simp [State.snkValid, hphase], by simp [State.snkFlush, hphase]⟩

/-- The codec operations and SET_SINK are whole in the accept step (R204). -/
theorem State.acceptInstr_of_codec {i : Instr} (h : isCodec i = true ∨ i = .setSink) (s : State) :
    s.acceptInstr i = exec i s := by
  cases i
  case sendFrame | sendFrameRepeated | sendRawBytes | systemHalt => simp [isCodec] at h
  all_goals rfl

/-- Settles O46: the step is `exec`, which answers a word or attaches the sink, with one response either way. -/
theorem codecRequestsTakeOneStep : Obligations.CodecRequestsTakeOneStep := by
  intro s r rest i hb hp hd hi
  have hstep : step s = exec i { s with pending := rest } := by
    rw [step_serial_ok hb hp hd, State.acceptInstr_of_codec hi]
  refine ⟨hstep, ?_⟩
  rw [hstep]
  obtain hcodec | rfl := hi
  · obtain ⟨w, hx⟩ := codecOperationsTouchNothing i hcodec
    exact ⟨_, hx _, (State.phase_idle_iff _).2 hb, _, rfl⟩
  · exact ⟨_, rfl, (State.phase_idle_iff _).2 hb, _, rfl⟩

/-! ### The emit step of a framed burst (R194, R195) -/

theorem highByte_toNat (w : Word) : (highByte w).toNat = w.toNat / 256 := by
  rw [highByte, extract_toNat]
  have := w.isLt
  omega

theorem lowByte_toNat (w : Word) : (lowByte w).toNat = w.toNat % 256 := by
  rw [lowByte, extract_toNat]
  simp

section
variable {s : State} (hp : s.phase = .emit) (hw : s.raw = false)
include hp hw

theorem State.snkByte_framed : s.snkByte = some s.framedByte := by simp [State.snkByte, hp, hw]

theorem State.snkLast_framed : s.snkLast = (decide (s.byteIdx = 2#2) && decide (s.repCnt = 1#5)) := by
  simp [State.snkLast, State.snkValid, hp, hw]

end

/-- Settles O47: the sequencer's step at each byte index, ready or stalled. -/
theorem framedEmitStep : Obligations.FramedEmitStep := by
  intro s hb hw hrep hidx hu
  have hp : s.phase = .emit := by rw [State.phase_framed hb hw, if_pos hrep]
  rw [step_busy hb hu, State.snkByte_framed hp hw, State.snkLast_framed hp hw]
  refine ⟨fun hr => ?_, fun hi => ?_, fun hi => ?_, fun hi => ?_⟩
  · rw [State.tick_stalled hp hr]
  · obtain hi : s.byteIdx = 0#2 := BitVec.eq_of_toNat_eq hi
    refine ⟨by simp [State.framedByte, hi, header], by simp [hi], fun hr => ?_⟩
    rw [State.tick_framed hp hw hr (by simp [hi])]
    simp [State.framedByte, hi, header]
  · obtain hi : s.byteIdx = 1#2 := BitVec.eq_of_toNat_eq hi
    refine ⟨highByte s.wordReg, highByte_toNat _, by simp [State.framedByte, hi], by simp [hi], fun hr => ?_⟩
    rw [State.tick_framed hp hw hr (by simp [hi])]
    simp [State.framedByte, hi]
  · obtain hi : s.byteIdx = 2#2 := BitVec.eq_of_toNat_eq hi
    refine ⟨lowByte s.wordReg, lowByte_toNat _, by simp [State.framedByte, hi], fun hmore => ?_, fun hone => ?_⟩
    · have hlast : s.repCnt ≠ 1#5 := by rintro h; simp [h] at hmore
      refine ⟨by simp [hlast], fun hr => ⟨s.repCnt - 1#5, by bv_omega, ?_⟩⟩
      rw [State.tick_framed hp hw hr (by simp [hlast])]
      simp [State.framedByte, hi]
    · obtain hone : s.repCnt = 1#5 := BitVec.eq_of_toNat_eq hone
      exact ⟨by simp [hi, hone], fun hr => by rw [State.tick_framedLast hp hw hr hi hone]⟩

/-! ### The raw path (R198) -/

section
variable {s : State} (hp : s.phase = .emit) (hw : s.raw = true)
include hp hw

theorem State.snkByte_raw : s.snkByte = s.reqRaw[s.rawIdx]? := by simp [State.snkByte, hp, hw]

theorem State.snkLast_raw : s.snkLast = decide (s.rawIdx + 1 = s.reqRaw.length) := by
  simp [State.snkLast, State.snkValid, hp, hw]

end

/-- Settles O48: the accept holds the list, and the sequencer's step sends its bytes. -/
theorem rawAcceptAndEmitSteps : Obligations.RawAcceptAndEmitSteps := by
  refine ⟨fun s r rest hb hp hs hop hlo hhi => ?_, fun s b hb hw hx hu => ?_⟩
  · exact step_rawRequest_attached hb hp hs hop ((rawLengthOk_iff _).2 ⟨hlo, hhi⟩)
  · have hlt : s.rawIdx < s.reqRaw.length := (List.getElem?_eq_some_iff.1 hx).1
    have hp : s.phase = .emit := by rw [State.phase_raw hb hw, if_pos hlt]
    rw [step_busy hb hu, State.snkByte_raw hp hw, State.snkLast_raw hp hw]
    refine ⟨hx, fun hr => ?_, fun hmore => ⟨?_, fun hr => ?_⟩, fun hlast => ⟨?_, fun hr => ?_⟩⟩
    · rw [State.tick_stalled hp hr]
    · simp [hmore.ne]
    · rw [State.tick_raw hb hw hr hx hmore.ne]
    · simp [hlast]
    · rw [State.tick_rawLast hb hw hr hx hlast]

/-! ### The flush step, and a busy block (R196, R202) -/

theorem State.snkFlush_of_flush {s : State} (h : s.phase = .flush) : s.snkFlush = true := by
  simp [State.snkFlush, h, rawFlush]

theorem step_flush {s : State} (hp : s.phase = .flush) (hu : s.undisturbed = true) :
    step s = .next { s with
      sinkTrace := s.sinkTrace ++ [.flush], busy := false, rawIdx := 0, responses := s.responses ++ [⟨.ok, none⟩] } := by
  rw [step_busy (State.busy_of_flush hp) hu, State.tick_flush hp]

/-- Settles O49: the step in phase FLUSH clears `busy`, which is phase IDLE. -/
theorem flushStepAnswersAndReturnsToIdle : Obligations.FlushStepAnswersAndReturnsToIdle := by
  intro s hp hu
  have hstep := step_flush hp hu
  refine ⟨State.snkFlush_of_flush hp, hstep, fun t ht => ?_⟩
  rw [hstep] at ht
  cases ht
  exact (State.phase_idle_iff _).2 rfl

/-- Settles O50: the step is the sequencer's, which writes none of these, and only its flush step answers. -/
theorem busyBlockTakesNoRequest : Obligations.BusyBlockTakesNoRequest := by
  intro s t hb h
  obtain ⟨-, -, rfl⟩ | ⟨hidle, -⟩ := step_cases h
  case inr => simp [hb] at hidle
  have hready : s.reqReady = false := by
    obtain hp | hp := State.phase_emit_or_flush hb <;> simp [State.reqReady, hp]
  obtain ⟨hidle, -⟩ | ⟨hp, ht⟩ | ⟨-, ht⟩ | ⟨-, -, -, ht⟩ | ⟨-, -, -, -, ht⟩ | ⟨b, -, -, -, -, ht⟩ |
    ⟨b, -, -, -, -, ht⟩ := s.tick_cases
  · simp [hb] at hidle
  · simp [ht, hready, hp]
  all_goals simp [ht, hready, hb]

end Sys2Proof.Machine

/-! A burst on the byte-level port runs to its end: each transfer takes the next of the bytes that remain, a stall takes
one listed step of the sink's readiness, and what the burst comes to is the same all along. So the byte-serial run ends
in the state of the transaction (R200), in a bounded number of steps (R203, R288). -/

namespace Sys2Proof.Machine

/-! ### The bytes that remain, and what the burst comes to -/

/-- The bytes of the burst in progress that are still to be offered, the next first (R195, R198). -/
def State.remaining (s : State) : List Byte :=
  if s.raw then s.reqRaw.drop s.rawIdx else (burstBytes s.wordReg s.repCnt.toNat).drop s.byteIdx.toNat

/-- What the burst in progress comes to: its whole list written and flushed, the response given, phase IDLE at the
position zero, and `ready` left of the sink's readiness. -/
def State.completed (ready : List Bool) (s : State) : State :=
  { s with
    busy := false, repCnt := 0#5, byteIdx := 0#2, rawIdx := 0, burst := []
    sinkTrace := s.sinkTrace ++ [.write (s.burst ++ s.remaining), .flush]
    responses := s.responses ++ [⟨.ok, none⟩]
    sinkReady := ready }

theorem burstBytes_drop_frame (w : Word) (n : Nat) : (burstBytes w n).drop 3 = burstBytes w (n - 1) := by
  cases n with
  | zero => rfl
  | succ n => rw [burstBytes_succ]; exact List.drop_left' (frameBytes_length w)

theorem State.remaining_raw {s : State} (hw : s.raw = true) : s.remaining = s.reqRaw.drop s.rawIdx := by
  simp [State.remaining, hw]

theorem State.remaining_framed {s : State} (hw : s.raw = false) :
    s.remaining = (burstBytes s.wordReg s.repCnt.toNat).drop s.byteIdx.toNat := by
  simp [State.remaining, hw]

/-- In phase EMIT of a framed burst the byte the multiplexer offers is the next of those that remain (R195). -/
theorem State.remaining_of_framedEmit {s : State} (hp : s.phase = .emit) (hw : s.raw = false)
    (hidx : s.byteIdx.toNat ≤ 2) :
    s.remaining = s.framedByte :: (burstBytes s.wordReg s.repCnt.toNat).drop (s.byteIdx.toNat + 1) := by
  have hrep := State.repCnt_of_emit hw hp
  rw [State.remaining_framed hw, List.drop_eq_getElem?_toList_append, burstBytes_getElem? _ (by omega),
    Nat.mod_eq_of_lt (by omega), State.frameBytes_byteIdx hidx]
  rfl

/-- In phase EMIT of a raw burst the byte at `raw_idx` is the next of those that remain (R198). -/
theorem State.remaining_of_rawEmit {s : State} {b : Byte} (hw : s.raw = true) (hx : s.reqRaw[s.rawIdx]? = some b) :
    s.remaining = b :: s.reqRaw.drop (s.rawIdx + 1) := by
  rw [State.remaining_raw hw, List.drop_eq_getElem?_toList_append, hx]
  rfl

/-- One byte of `s` transferred gives `t`: still in phase EMIT, with one byte less to come and the same end. -/
def State.Advances (s t : State) : Prop :=
  t.phase = .emit ∧ s.remaining.length = t.remaining.length + 1 ∧ ∀ ready, t.completed ready = s.completed ready

/-- The last byte of `s` transferred gives `t`: in phase FLUSH, and its flush step is the end. -/
def State.Finishes (s t : State) : Prop :=
  t.phase = .flush ∧ s.remaining.length = 1 ∧ t.tick = s.completed t.sinkReady

section
variable {s : State} (hp : s.phase = .emit) (hr : s.snkReady = true)
include hp hr

theorem State.tick_framed_advances (hidx : s.byteIdx.toNat ≤ 2) (hw : s.raw = false)
    (hl : ¬(s.byteIdx = 2#2 ∧ s.repCnt = 1#5)) : s.Advances s.tick := by
  have hb := State.busy_of_emit hp
  have hrep := State.repCnt_of_emit hw hp
  have ht := State.tick_framed hp hw hr hl
  obtain ⟨-, hrep', -, -⟩ := State.counters_of_framedByte (t := s.tick) hrep hidx hl (by rw [ht]) (by rw [ht])
  have hremain : s.remaining = s.framedByte :: s.tick.remaining := by
    rw [State.remaining_of_framedEmit hp hw hidx, State.remaining_framed (by rw [ht]; exact hw), ht]
    by_cases hlt : s.byteIdx.toNat < 2
    · have hnext : (s.byteIdx + 1#2).toNat = s.byteIdx.toNat + 1 := by bv_omega
      simp [hlt, hnext]
    · have hlow : s.byteIdx.toNat + 1 = 3 := by omega
      have hprev : (s.repCnt - 1#5).toNat = s.repCnt.toNat - 1 := by bv_omega
      simp [hlt, hlow, hprev, burstBytes_drop_frame]
  refine ⟨?_, by simp [hremain], fun ready => ?_⟩
  · rw [State.phase_framed (by rw [ht]; exact hb) (by rw [ht]; exact hw), if_pos hrep']
  · simp [State.completed, hremain, ht]

theorem State.tick_framedLast_finishes (hw : s.raw = false) (hi : s.byteIdx = 2#2) (hc : s.repCnt = 1#5) :
    s.Finishes s.tick := by
  have hb := State.busy_of_emit hp
  have ht := State.tick_framedLast hp hw hr hi hc
  have hphase : s.tick.phase = .flush := by
    rw [ht]; simp [State.phase, State.bytesRemain, hw, hb]
  have hremain : s.remaining = [lowByte s.wordReg] := by
    rw [State.remaining_framed hw, hi, hc]; rfl
  refine ⟨hphase, by simp [hremain], ?_⟩
  rw [State.tick_flush hphase]
  simp [State.completed, hremain, ht]

variable (hw : s.raw = true) {b : Byte} (hx : s.reqRaw[s.rawIdx]? = some b)
include hw hx

theorem State.tick_raw_advances (hl : s.rawIdx + 1 ≠ s.reqRaw.length) : s.Advances s.tick := by
  have hb := State.busy_of_emit hp
  have hlt := State.rawIdx_of_emit hw hp
  have hmore : s.rawIdx + 1 < s.reqRaw.length := by omega
  have ht := State.tick_raw hb hw hr hx hl
  have hremain : s.remaining = b :: s.tick.remaining := by
    rw [State.remaining_of_rawEmit hw hx, State.remaining_raw (by rw [ht]; exact hw), ht]
  refine ⟨?_, by simp [hremain], fun ready => ?_⟩
  · rw [State.phase_raw (by rw [ht]; exact hb) (by rw [ht]; exact hw), ht]
    exact if_pos hmore
  · simp [State.completed, hremain, ht]

theorem State.tick_rawLast_finishes (hrep : s.repCnt = 0#5) (hidx : s.byteIdx = 0#2)
    (hl : s.rawIdx + 1 = s.reqRaw.length) : s.Finishes s.tick := by
  have hb := State.busy_of_emit hp
  have ht := State.tick_rawLast hb hw hr hx hl
  have hphase : s.tick.phase = .flush := by
    rw [ht]; simp [State.phase, State.bytesRemain, hw, hb, hl]
  have hremain : s.remaining = [b] := by
    rw [State.remaining_of_rawEmit hw hx, hl, List.drop_length]
  refine ⟨hphase, by simp [hremain], ?_⟩
  rw [State.tick_flush hphase]
  simp [State.completed, hremain, ht, hrep, hidx]

end

/-- With the sink ready the sequencer transfers a byte: the last one, or one before it (R194, R198). -/
theorem State.Inv.tick_of_ready {s : State} (h : s.Inv) (hp : s.phase = .emit) (hr : s.snkReady = true) :
    s.Advances s.tick ∨ s.Finishes s.tick := by
  cases hw : s.raw
  · by_cases hl : s.byteIdx = 2#2 ∧ s.repCnt = 1#5
    · obtain ⟨hi, hc⟩ := hl
      exact .inr (State.tick_framedLast_finishes hp hr hw hi hc)
    · exact .inl (State.tick_framed_advances hp hr h.byteIdx_le hw hl)
  · have hx := List.getElem?_eq_getElem (State.rawIdx_of_emit hw hp)
    by_cases hl : s.rawIdx + 1 = s.reqRaw.length
    · obtain ⟨hrep, hidx, -, -⟩ := h.rawBurst_of_emit hp hw
      exact .inr (State.tick_rawLast_finishes hp hr hw hx hrep hidx hl)
    · exact .inl (State.tick_raw_advances hp hr hw hx hl)

/-! ### The run of a burst -/

/-- A step of the sequencer leaves the queue alone, and in phase EMIT uses one listed step of the readiness. -/
theorem State.tick_of_emit {s : State} (hp : s.phase = .emit) :
    s.tick.pending = s.pending ∧ s.tick.sinkTail = s.sinkTail ∧ s.tick.sinkReady = s.sinkReady.tail := by
  obtain ⟨hb, -⟩ | ⟨hf, -⟩ | ⟨-, ht⟩ | ⟨-, -, -, ht⟩ | ⟨-, -, -, -, ht⟩ | ⟨b, -, -, -, -, ht⟩ |
    ⟨b, -, -, -, -, ht⟩ := s.tick_cases
  · simp [State.busy_of_emit hp] at hb
  · simp [hf] at hp
  all_goals simp [ht]

theorem State.undisturbed_congr {s t : State} (h : t.pending = s.pending) : t.undisturbed = s.undisturbed := by
  simp [State.undisturbed, h]

/-- A sink that is ready once its listed steps are over stalls in a listed step alone. -/
theorem State.sinkReady_of_stalled {s : State} (htail : s.sinkTail = true) (hr : s.snkReady = false) :
    ∃ later, s.sinkReady = false :: later := by
  unfold State.snkReady at hr
  cases hl : s.sinkReady with
  | nil => simp [hl, htail] at hr
  | cons ready later => exact ⟨later, by simpa [hl] using hr⟩

/-- A burst before a sink that is ready infinitely often comes to its end: one step for each byte that remains, one for
each listed stall, and the flush step (R199, R203). -/
theorem run_burst {s : State} (h : s.Inv) (hp : s.phase = .emit) (hu : s.undisturbed = true)
    (htail : s.sinkTail = true) :
    ∃ k ready, k ≤ s.remaining.length + s.sinkReady.count false + 1 ∧ run k s = .next (s.completed ready) := by
  induction hm : s.remaining.length + s.sinkReady.length using Nat.strong_induction_on generalizing s with
  | _ m ih =>
    have hstep : step s = .next s.tick := step_busy (State.busy_of_emit hp) hu
    obtain ⟨hpending, htail', hready⟩ := State.tick_of_emit hp
    have hu' : s.tick.undisturbed = true := by rw [State.undisturbed_congr hpending, hu]
    rw [htail] at htail'
    cases hr : s.snkReady
    · obtain ⟨later, hlater⟩ := State.sinkReady_of_stalled htail hr
      have ht := State.tick_stalled hp hr
      have hp' : s.tick.phase = .emit := by rw [ht]; exact hp
      have hremain : s.tick.remaining = s.remaining := by rw [ht]; rfl
      have hstall : s.sinkReady.count false = s.tick.sinkReady.count false + 1 := by rw [hready, hlater]; simp
      obtain ⟨k, ready, hk, hrun⟩ := ih _ (by rw [← hm, hremain, hready, hlater]; simp) h.tick hp' hu' htail' rfl
      rw [hremain] at hk
      exact ⟨k + 1, ready, by omega, by rw [run_succ hstep, hrun, ht]; rfl⟩
    · have hcount := (List.tail_sublist s.sinkReady).count_le false
      obtain ⟨hp', hremain, hend⟩ | ⟨hp', hremain, hend⟩ := h.tick_of_ready hp hr
      · obtain ⟨k, ready, hk, hrun⟩ := ih _ (by rw [← hm, hremain, hready]; simp; omega) h.tick hp' hu' htail' rfl
        rw [hready] at hk
        exact ⟨k + 1, ready, by omega, by rw [run_succ hstep, hrun, hend]⟩
      · have hflush : step s.tick = .next s.tick.tick := step_busy (State.busy_of_flush hp') hu'
        exact ⟨2, _, by omega, by rw [run_succ hstep, run_succ hflush, hend]; rfl⟩

/-! ### From the accept to the end -/

section
variable (s : State) {w : Word} {n : Nat}

theorem State.phase_acceptFramed (hn : 1 ≤ n) (hn' : n ≤ 30) : (s.acceptFramed w n).phase = .emit := by
  rw [State.phase_framed rfl rfl, s.repCnt_acceptFramed hn']
  exact if_pos hn

theorem State.remaining_acceptFramed (hn : n ≤ 30) : (s.acceptFramed w n).remaining = burstBytes w n := by
  rw [State.remaining_framed rfl, s.repCnt_acceptFramed hn]
  rfl

theorem State.remaining_acceptRaw (bytes : List Byte) : (s.acceptRaw bytes).remaining = bytes := rfl

end

section
variable {s : State} (h : s.Inv) (hb : s.busy = false)
include h hb

/-- A framed burst comes to what the transaction does (R200), with `word_reg` and `raw` as the burst leaves them. -/
theorem State.Inv.completed_acceptFramed {w : Word} {n : Nat} (hn : n ≤ 30) (ready : List Bool) :
    (s.acceptFramed w n).completed ready =
      { s.sent (burstBytes w n) with wordReg := w, raw := false, sinkReady := ready } := by
  obtain ⟨hrep, hidx, hraw, hburst⟩ := h.idle hb
  simp only [State.completed, s.remaining_acceptFramed hn]
  simp [State.acceptFramed, State.sent, hrep, hidx, hraw, hburst, hb]

/-- A raw burst comes to what the transaction does (R200), with `raw` and the list held as the burst leaves them. -/
theorem State.Inv.completed_acceptRaw (bytes : List Byte) (ready : List Bool) :
    (s.acceptRaw bytes).completed ready =
      { s.sent bytes with raw := true, reqRaw := bytes, sinkReady := ready } := by
  obtain ⟨hrep, hidx, hraw, hburst⟩ := h.idle hb
  simp only [State.completed, s.remaining_acceptRaw]
  simp [State.acceptRaw, State.sent, hrep, hidx, hraw, hburst, hb]

end

/-- A step that begins a burst, and then the burst to its end (R203). -/
theorem run_accepted {s t : State} (hstep : step s = .next t) (h : t.Inv) (hp : t.phase = .emit)
    (hu : t.undisturbed = true) (htail : t.sinkTail = true) :
    ∃ k ready, k ≤ t.remaining.length + 2 + t.sinkReady.count false ∧ run k s = .next (t.completed ready) := by
  obtain ⟨k, ready, hk, hrun⟩ := run_burst h hp hu htail
  exact ⟨k + 1, ready, by omega, by rw [run_succ hstep, hrun]⟩

section
variable {s : State} {r : Request} (h : s.Inv) (hb : s.busy = false) (hs : s.sinkEn = true)
  (hp : s.pending = [.serial r]) (hfair : s.SinkFair)
include h hb hs hp hfair

/-- The byte-serial run of a framed request: `n` frames, three bytes each (R193, R199). -/
theorem run_framedRequest {w : Word} {n : Nat} (hreq : FramedRequest r w n) :
    ∃ k ready, k ≤ 3 * n + 2 + s.sinkReady.count false ∧ run k s = .next
      { ({ s with pending := [] } : State).sent (burstBytes w n) with wordReg := w, raw := false, sinkReady := ready } := by
  obtain ⟨hn, hn'⟩ := hreq.count_range
  have h' := h.of_pending []
  obtain ⟨k, ready, hk, hrun⟩ := run_accepted (step_framedRequest_attached hb hp hs hreq)
    (h'.acceptFramed hb hs hn hn') (State.phase_acceptFramed _ hn hn') rfl (s.sinkFair_iff.1 hfair)
  rw [State.remaining_acceptFramed _ hn', burstBytes_length] at hk
  exact ⟨k, ready, hk, hrun.trans (congrArg Host.Outcome.next (h'.completed_acceptFramed hb hn' ready))⟩

/-- The byte-serial run of a raw request (R198). -/
theorem run_rawRequest (hop : r.op = 0b110#3) (hlen : rawLengthOk r.raw.length = true) :
    ∃ k ready, k ≤ r.raw.length + 2 + s.sinkReady.count false ∧ run k s = .next
      { ({ s with pending := [] } : State).sent r.raw with raw := true, reqRaw := r.raw, sinkReady := ready } := by
  have h' := h.of_pending []
  have hphase : (({ s with pending := [] } : State).acceptRaw r.raw).phase = .emit := by
    rw [State.phase_raw rfl rfl]
    exact if_pos ((rawLengthOk_iff _).1 hlen).1
  obtain ⟨k, ready, hk, hrun⟩ := run_accepted (step_rawRequest_attached hb hp hs hop hlen) (h'.acceptRaw hb hs hlen)
    hphase rfl (s.sinkFair_iff.1 hfair)
  exact ⟨k, ready, hk, hrun.trans (congrArg Host.Outcome.next (h'.completed_acceptRaw hb r.raw ready))⟩

end

/-- Settles O54: the run ends in the state of one transmit of the burst, which is what the request's instruction and
SEND_FRAME_REPEATED do at the transaction level. -/
theorem byteSerialRunAgreesForFramedRequests : Obligations.ByteSerialRunAgreesForFramedRequests := by
  intro s r w n h hb hs hp hfair hop
  have hreq : FramedRequest r w (max 1 (min n 30)) := by
    obtain ⟨hop, hw, rfl⟩ | ⟨hop, hw, rfl⟩ | ⟨hop, hw, rfl⟩ := hop
    · exact .inl ⟨hop, hw, rfl⟩
    · exact .inr (.inl ⟨hop, hw, rfl⟩)
    · exact .inr (.inr ⟨hop, hw, rfl⟩)
  obtain ⟨k, ready, -, hrun⟩ := run_framedRequest h hb hs hp hfair hreq
  obtain ⟨i, hd, -, hx⟩ := hreq.decodes
  exact ⟨k, _, ready, exec_sent_of_transmit (exec_sendFrameRepeated w n _) hs,
    ⟨i, hd, exec_sent_of_transmit (hx _) hs⟩, hrun⟩

/-- Settles O55: the run ends in the state of one transmit of the list. -/
theorem byteSerialRunAgreesForRawRequests : Obligations.ByteSerialRunAgreesForRawRequests := by
  intro s r h hb hs hp hfair hop hlo hhi
  have hlen : rawLengthOk r.raw.length = true := (rawLengthOk_iff _).2 ⟨hlo, hhi⟩
  obtain ⟨k, ready, -, hrun⟩ := run_rawRequest h hb hs hp hfair hop hlen
  have hx := State.rawBurst_of_lengthOk hlen { s with pending := [] }
  exact ⟨k, _, ready, exec_sent_of_transmit (i := .sendRawBytes r.raw) hx hs, hrun⟩

/-- Settles O56: the run of the framed request, its bound and the trace of its end. -/
theorem framedBurstEndsInBoundedSteps : Obligations.FramedBurstEndsInBoundedSteps := by
  intro s r w n h hb hs hp hfair hreq
  obtain ⟨k, ready, hk, hrun⟩ := run_framedRequest h hb hs hp hfair hreq
  refine ⟨k, _, hk, hrun, (State.phase_idle_iff _).2 hb, ?_⟩
  rw [← frameBytes_eq]
  rfl

end Sys2Proof.Machine

/-! The caller's facade (43_vocabulary_facade.md): the words of the named actions (R221), what a facade row does once
the fields it needs hold values (R222, R223, R228 to R237), the setters and `get_current_speed` (R226, R227, R229),
`test_pattern` (R241), and what an unset field refuses (R224). -/

namespace Sys2Proof.Machine

/-! ### The named actions (R130, R221) -/

/-- A code fits the data field, so the mask leaves it as it is. -/
theorem actionWord_code_toNat (a : Nat) (act : EngineAction) :
    (actionWord a act.code.toNat).toNat = a % 128 * 128 + act.code.toNat := by
  rw [actionWord_toNat, Nat.mod_eq_of_lt act.code.isLt]

theorem exec_actRow (act : EngineAction) (a : Nat) (s : State) :
    exec (act.instr a) s = .next (s.answered (actionWord a act.code.toNat)) := by cases act <;> rfl

/-- Settles O13: the list pairs each named action's row with its code. -/
theorem namedActionRowsGiveTheirWords : Obligations.NamedActionRowsGiveTheirWords := by
  intro p hp a s
  have hp : p ∈ EngineAction.all.map fun act => (act.instr, act.code.toNat) := hp
  obtain ⟨act, -, rfl⟩ := List.mem_map.1 hp
  exact ⟨actionWord a act.code.toNat, exec_actRow act a s, actionWord_code_toNat a act⟩

/-- The word a facade action forms for an entity with address `a` (R222). -/
def entityWord (a : BitVec 7) (act : EngineAction) : Word := actionWord a.toNat act.code.toNat

theorem entityWord_toNat (a : BitVec 7) (act : EngineAction) :
    (entityWord a act).toNat = a.toNat * 128 + act.code.toNat := by
  rw [entityWord, actionWord_code_toNat, Nat.mod_eq_of_lt a.isLt]

/-! ### Entities and their fields (R224) -/

@[simp] theorem withField_some {α : Type} (field : EngineField) (v : α) (k : α → Outcome) :
    withField field (some v) k = k v := rfl

@[simp] theorem withField_none {α : Type} (field : EngineField) (k : α → Outcome) :
    withField field none k = .refused (.engineFieldUnset field) := rfl

section
variable {s : State} {e : Nat} {E : Engine} (hE : s.engines[e]? = some E)
include hE

theorem State.withEngine_of_getElem? (k : Engine → Outcome) : s.withEngine e k = k E := by
  simp [State.withEngine, hE]

/-! ### A facade row whose fields hold values (R222, R223) -/

theorem State.facadeAction_of_address {a : BitVec 7} (ha : E.address = some a) (act : EngineAction)
    (send : Word → State → State) :
    s.facadeAction e act send = .next (send (entityWord a act) (s.answered (entityWord a act))) := by
  rw [State.facadeAction, State.withEngine_of_getElem? hE, ha]
  rfl

/-- The single-shot path: one transmit of one frame. -/
theorem State.facadeAction_singleShot {a : BitVec 7} (ha : E.address = some a) (act : EngineAction) :
    s.facadeAction e act singleShot =
      .next ((s.answered (entityWord a act)).transmit (frameNumbers (entityWord a act)) true) := by
  rw [State.facadeAction_of_address hE ha, ← frameBytes_eq]
  rfl

/-- The path of horn and bell: one transmit of thirty frames. -/
theorem State.facadeAction_repeatedPath {a : BitVec 7} (ha : E.address = some a) (act : EngineAction) :
    s.facadeAction e act repeatedPath =
      .next ((s.answered (entityWord a act)).transmit (burstBytes (entityWord a act) 30) true) :=
  State.facadeAction_of_address hE ha act repeatedPath

theorem State.facadeDirection_of_address {a : BitVec 7} (ha : E.address = some a) (dir : Direction)
    (act : EngineAction) :
    s.facadeDirection e dir act =
      .next (((s.answered (entityWord a act)).transmit (frameNumbers (entityWord a act)) true).updateEngine e
        { E with direction := some dir }) := by
  rw [State.facadeDirection, State.withEngine_of_getElem? hE, State.facadeAction_of_address hE ha, ← frameBytes_eq]
  rfl

theorem execFacadeSetSpeed_of_fields {a : BitVec 7} {m : BitVec 5} (ha : E.address = some a)
    (hm : E.maxSpeed = some m) (v : Nat) :
    execFacadeSetSpeed e v s =
      .next (((s.answered (speedWord a.toNat (min v m.toNat))).transmit
        (frameNumbers (speedWord a.toNat (min v m.toNat))) true).updateEngine e
          { E with currentSpeed := some (BitVec.ofNat 5 (min v m.toNat)) }) := by
  rw [execFacadeSetSpeed, State.withEngine_of_getElem? hE, hm, withField_some, ha, withField_some, clamp_zero,
    ← frameBytes_eq]
  rfl

/-! ### A facade row whose fields hold none (R224, R281) -/

theorem State.facadeAction_of_address_none (ha : E.address = none) (act : EngineAction) (send : Word → State → State) :
    s.facadeAction e act send = .refused (.engineFieldUnset .address) := by
  rw [State.facadeAction, State.withEngine_of_getElem? hE, ha, withField_none]

theorem State.facadeDirection_of_address_none (ha : E.address = none) (dir : Direction) (act : EngineAction) :
    s.facadeDirection e dir act = .refused (.engineFieldUnset .address) := by
  rw [State.facadeDirection, State.withEngine_of_getElem? hE, State.facadeAction_of_address_none hE ha]

theorem execFacadeSetSpeed_of_maxSpeed_none (hm : E.maxSpeed = none) (v : Nat) :
    execFacadeSetSpeed e v s = .refused (.engineFieldUnset .maxSpeed) := by
  rw [execFacadeSetSpeed, State.withEngine_of_getElem? hE, hm, withField_none]

/-- Without an address `set_speed` is refused whether or not there is a maximum, which it reads first (log 26). -/
theorem execFacadeSetSpeed_of_address_none (ha : E.address = none) (v : Nat) :
    ∃ field, execFacadeSetSpeed e v s = .refused (.engineFieldUnset field) := by
  cases hm : E.maxSpeed with
  | none => exact ⟨.maxSpeed, execFacadeSetSpeed_of_maxSpeed_none hE hm v⟩
  | some m =>
    refine ⟨.address, ?_⟩
    rw [execFacadeSetSpeed, State.withEngine_of_getElem? hE, hm, withField_some, ha, withField_none]

/-! ### The calls on an entity (R226, R227, R229) -/

theorem execCall_setAddress (v : Nat) :
    execCall (.setAddress e v) s = .next (s.putEngine e { E with address := some (mask 7 v) }) := by
  rw [execCall, execSetAddress, State.withEngine_of_getElem? hE]

theorem execCall_setMaxSpeed (v : Nat) :
    execCall (.setMaxSpeed e v) s =
      if speedWithin E.currentSpeed (min v 31) then
        .next (s.putEngine e { E with maxSpeed := some (BitVec.ofNat 5 (min v 31)) })
      else .refused .maxSpeedBelowCurrent := by
  rw [execCall, execSetMaxSpeed, State.withEngine_of_getElem? hE, clamp_zero]
  rfl

theorem execCall_getCurrentSpeed :
    execCall (.getCurrentSpeed e) s = withField .currentSpeed E.currentSpeed fun c =>
      .next { s with speedResults := s.speedResults ++ [c] } := by
  rw [execCall, execGetCurrentSpeed, State.withEngine_of_getElem? hE]

end

/-! ### The states after (R223; log 7) -/

section
variable {s : State} (w : Word) (bytes : List Byte)

theorem State.transmit_answered_sent (hs : s.sinkEn = true) :
    (s.answered w).transmit bytes true = (s.answered w).sent bytes := State.transmit_sent bytes hs

theorem State.transmit_answered_unsent (hs : s.sinkEn = false) :
    (s.answered w).transmit bytes true = (s.answered w).unsent := State.transmit_unsent bytes true hs

end

theorem State.updateEngine_of_sinkEn {s : State} (hs : s.sinkEn = true) (e : Nat) (E : Engine) :
    s.updateEngine e E = s.putEngine e E := by
  simp [State.updateEngine, hs]

/-- Whether or not the update is made, it changes no more than the one entity. -/
theorem State.updateEngine_frame (s : State) (e : Nat) (E : Engine) :
    (s.updateEngine e E).sinkTrace = s.sinkTrace ∧ (s.updateEngine e E).diagTrace = s.diagTrace ∧
      ∀ k, k ≠ e → (s.updateEngine e E).engines[k]? = s.engines[k]? := by
  obtain h | h := s.updateEngine_cases e E
  · simp [h]
  · rw [h]
    exact ⟨rfl, rfl, fun k hk => List.getElem?_set_ne hk.symm⟩

section
variable {i : Instr} {s : State} {w : Word} {bytes : List Byte}
  (hx : exec i s = .next ((s.answered w).transmit bytes true))
include hx

theorem exec_action_sent (hs : s.sinkEn = true) : exec i s = .next ((s.answered w).sent bytes) := by
  rw [hx, State.transmit_answered_sent w bytes hs]

theorem exec_action_unsent (hs : s.sinkEn = false) : exec i s = .next (s.answered w).unsent := by
  rw [hx, State.transmit_answered_unsent w bytes hs]

end

section
variable {i : Instr} {s : State} {w : Word} {bytes : List Byte} {e : Nat} {F : Engine}
  (hx : exec i s = .next (((s.answered w).transmit bytes true).updateEngine e F))
include hx

theorem exec_setter_sent (hs : s.sinkEn = true) :
    exec i s = .next { (s.answered w).sent bytes with engines := s.engines.set e F } := by
  rw [hx, State.transmit_answered_sent w bytes hs, State.updateEngine_of_sinkEn (s := (s.answered w).sent bytes) hs]
  rfl

theorem exec_setter_unsent (hs : s.sinkEn = false) :
    ∃ t, exec i s = .next t ∧ t.sinkTrace = s.sinkTrace ∧ t.diagTrace = s.diagTrace ++ [.noSink] ∧
      ∀ k, k ≠ e → t.engines[k]? = s.engines[k]? := by
  rw [State.transmit_answered_unsent w bytes hs] at hx
  exact ⟨_, hx, State.updateEngine_frame _ e F⟩

end

/-! ### The rows that transmit (R228, R230 to R237) -/

/-- Settles O35: the clamped speed is at most the maximum, so it fits the field it is stored in and the word. -/
theorem setSpeedStoresAndSendsTheClampedSpeed : Obligations.SetSpeedStoresAndSendsTheClampedSpeed := by
  intro e v s E a m hE ha hm
  have hx : exec (.facadeSetSpeed e v) s = _ := execFacadeSetSpeed_of_fields hE ha hm v
  have hspeed : min v m.toNat < 32 := (Nat.min_le_right _ _).trans_lt m.isLt
  refine ⟨fun hs => ⟨_, _, exec_setter_sent hx hs, Nat.mod_eq_of_lt hspeed, ?_⟩, exec_setter_unsent hx⟩
  rw [speedWord_toNat, Nat.mod_eq_of_lt a.isLt, Nat.min_eq_left (by omega : min v m.toNat ≤ 31)]

/-- Settles O36: both rows are a direction action, each with its flag and its code. -/
theorem directionActionsSetTheFlagAndSend : Obligations.DirectionActionsSetTheFlagAndSend := by
  intro e s E a hE ha p hp
  have hrow : exec p.1 s = s.facadeDirection e p.2.1 p.2.2 := by
    simp only [List.mem_cons, List.not_mem_nil, or_false] at hp
    obtain rfl | rfl := hp <;> rfl
  have hx := hrow.trans (State.facadeDirection_of_address hE ha p.2.1 p.2.2)
  exact ⟨fun hs => ⟨_, exec_setter_sent hx hs, entityWord_toNat a p.2.2⟩, exec_setter_unsent hx⟩

/-- Settles O37: the four rows are an action on the single-shot path. -/
theorem singleShotActionsSendOneFrame : Obligations.SingleShotActionsSendOneFrame := by
  intro e s E a hE ha p hp
  have hrow : exec p.1 s = s.facadeAction e p.2 singleShot := by
    simp only [List.mem_cons, List.not_mem_nil, or_false] at hp
    obtain rfl | rfl | rfl | rfl := hp <;> rfl
  have hx := hrow.trans (State.facadeAction_singleShot hE ha p.2)
  exact ⟨entityWord a p.2, entityWord_toNat a p.2, exec_action_sent hx, exec_action_unsent hx⟩

theorem burstBytes_thirty (w : Word) :
    (burstBytes w 30).length = 90 ∧ ∀ k, k < 30 → ((burstBytes w 30).drop (3 * k)).take 3 = frameNumbers w :=
  ⟨burstBytes_length w 30, fun _ hk => (burstBytes_frame w hk).trans (frameBytes_eq w)⟩

/-- Settles O38: both rows are an action on the path of thirty frames. -/
theorem hornAndBellSendThirtyFrames : Obligations.HornAndBellSendThirtyFrames := by
  intro e s E a hE ha p hp
  have hrow : exec p.1 s = s.facadeAction e p.2 repeatedPath := by
    simp only [List.mem_cons, List.not_mem_nil, or_false] at hp
    obtain rfl | rfl := hp <;> rfl
  obtain ⟨hlength, hframes⟩ := burstBytes_thirty (entityWord a p.2)
  have hx := hrow.trans (State.facadeAction_repeatedPath hE ha p.2)
  exact ⟨entityWord a p.2, _, entityWord_toNat a p.2, hlength, hframes, exec_action_sent hx, exec_action_unsent hx⟩

/-! ### Setters that send nothing, and reading the speed -/

theorem speedWithin_iff (current : Option (BitVec 5)) (bound : Nat) :
    speedWithin current bound = true ↔ ∀ c, current = some c → c.toNat ≤ bound := by
  cases current <;> simp [speedWithin]

/-- Settles O39: `set_max_speed` tests the stored speed against the clamped maximum, which fits its field. -/
theorem addressAndMaxSpeedSetters : Obligations.AddressAndMaxSpeedSetters := by
  intro e v s E hE
  rw [execCall_setMaxSpeed hE, ← speedWithin_iff]
  refine ⟨⟨mask 7 v, BitVec.toNat_ofNat v 7, execCall_setAddress hE v⟩, fun hwithin => ?_, fun c hc habove => ?_⟩
  · exact ⟨BitVec.ofNat 5 (min v 31), Nat.mod_eq_of_lt (by omega), if_pos hwithin⟩
  · exact if_neg fun hwithin => habove.not_ge ((speedWithin_iff _ _).1 hwithin c hc)

theorem execCall_getCurrentSpeed_of_currentSpeed {s : State} {e : Nat} {E : Engine} {c : BitVec 5}
    (hE : s.engines[e]? = some E) (hc : E.currentSpeed = some c) :
    execCall (.getCurrentSpeed e) s = .next { s with speedResults := s.speedResults ++ [c] } := by
  rw [execCall_getCurrentSpeed hE, hc, withField_some]

/-- Settles O40: the entity `set_speed` leaves (O35) holds the clamped speed. -/
theorem getCurrentSpeedReturnsTheClampedSpeed : Obligations.GetCurrentSpeedReturnsTheClampedSpeed := by
  refine ⟨fun e s E c => execCall_getCurrentSpeed_of_currentSpeed, fun e v s E a m hE ha hm hs => ?_⟩
  obtain ⟨w, c, hx, hc, -⟩ := (setSpeedStoresAndSendsTheClampedSpeed e v s E a m hE ha hm).1 hs
  have hstored : (s.engines.set e { E with currentSpeed := some c })[e]? = some { E with currentSpeed := some c } := by
    simp [List.getElem?_set_self', hE]
  exact ⟨_, hx, c, hc, execCall_getCurrentSpeed_of_currentSpeed hstored rfl⟩

/-! ### The test pattern (R241) -/

/-- The horn word of `TEST_HORN_ADDR` (R8, D21; log 6). -/
def testHornWord : Word := actionWord Config.testHornAddr EngineAction.horn1.code.toNat

theorem execCall_testPattern (s : State) :
    execCall .testPattern s =
      .next (((s.transmit testPatternBytes true).answered testHornWord).transmit (burstBytes testHornWord 30) true) :=
  rfl

/-- Settles O41: the call is a transmit of the pattern and one of the horn burst, and the first leaves the sink. -/
theorem testPatternSendsItsBytesThenTheHorn : Obligations.TestPatternSendsItsBytesThenTheHorn := by
  intro s
  obtain ⟨hlength, hframes⟩ := burstBytes_thirty testHornWord
  refine ⟨testHornWord, _, actionWord_code_toNat _ .horn1, hlength, hframes, fun hs => ?_, fun hs => ?_⟩
  · rw [execCall_testPattern, State.transmit_sent _ hs, State.transmit_answered_sent (s := s.sent _) _ _ hs]
    rfl
  · rw [execCall_testPattern, State.transmit_unsent _ _ hs, State.transmit_answered_unsent (s := s.unsent) _ _ hs]

/-! ### Unset fields (R224, R281) -/

/-- A facade row on an entity without an address: it is `set_speed`, a direction action, or an action that sends. -/
theorem exec_onEntity_of_address_none {i : Instr} {e : Nat} {s : State} {E : Engine} (hi : entity i = some e)
    (hE : s.engines[e]? = some E) (ha : E.address = none) : ∃ field, exec i s = .refused (.engineFieldUnset field) := by
  cases i <;> simp [entity] at hi <;> subst hi
  case facadeSetSpeed e v => exact execFacadeSetSpeed_of_address_none hE ha v
  case facadeSetDirectionForward | facadeSetDirectionReverse =>
    exact ⟨.address, State.facadeDirection_of_address_none hE ha _ _⟩
  case facadeOpenFrontCoupler | facadeOpenRearCoupler | facadeBoost | facadeBrake | facadeBlowHorn | facadeRingBell =>
    exact ⟨.address, State.facadeAction_of_address_none hE ha _ _⟩

/-- Settles O42: a row or call that reads an unset field is refused there, and a new entity is `Engine.new`. -/
theorem unsetEngineFieldsAreRefused : Obligations.UnsetEngineFieldsAreRefused := by
  refine ⟨fun e s E hE => ⟨fun ha i hi => exec_onEntity_of_address_none hi hE ha,
    fun hm v => execFacadeSetSpeed_of_maxSpeed_none hE hm v, fun hc => ?_⟩,
    fun s => ⟨Engine.new, rfl, rfl, rfl, rfl, rfl⟩⟩
  rw [execCall_getCurrentSpeed hE, hc, withField_none]

end Sys2Proof.Machine

/-! The errors and the idle block (60_exceptions.md): what a step in phase IDLE takes from the queue (R279, R287), the
configuration error of a transmit without a sink (R272), and a burst that ends in a bounded number of steps or, before
a sink that is never ready again, never (R288). -/

namespace Sys2Proof.Machine

/-! ### The queue of inputs (R202; log 4) -/

theorem step_nothing {s : State} (hb : s.busy = false) (hp : s.pending = []) : step s = .next s := by
  simp [step, hb, State.takeInput, hp]

theorem step_untilIdle {s : State} {rest : List Input} (hb : s.busy = false) (hp : s.pending = .untilIdle :: rest) :
    step s = .next { s with pending := rest } := by
  simp [step, hb, State.takeInput, hp]

@[simp] theorem State.answered_pending (s : State) (w : Word) : (s.answered w).pending = s.pending := rfl

theorem exec_pending {i : Instr} {s t : State} (h : exec i s = .next t) : t.pending = s.pending := by
  obtain ⟨-, -, -, -, -, -, -, -, hp, -⟩ := (instructionsLeaveTheSequencerAlone i s).2 t h
  exact hp

theorem execCall_pending {c : Call} {s t : State} (h : execCall c s = .next t) : t.pending = s.pending := by
  obtain ⟨engines, rfl, -⟩ | ⟨v, rfl⟩ | ⟨w, rfl⟩ := execCall_cases h
  · rfl
  · rfl
  · simp

theorem State.acceptInstr_pending {i : Instr} {s t : State} (h : s.acceptInstr i = .next t) :
    t.pending = s.pending := by
  obtain h | ⟨-, rfl⟩ | ⟨-, w, n, -, -, rfl⟩ | ⟨-, bytes, -, rfl⟩ := State.acceptInstr_cases h
  · exact exec_pending h
  all_goals rfl

/-- A step in phase IDLE that answers next takes the input presented next, whatever it is, and no other (R279). -/
theorem step_pending_of_idle {s t : State} (hb : s.busy = false) (h : step s = .next t) :
    t.pending = s.pending.tail := by
  obtain ⟨hbusy, -⟩ | ⟨-, hidle⟩ := step_cases h
  · simp [hb] at hbusy
  obtain ⟨hp, rfl⟩ | ⟨bytes, rest, i, hp, -, hx⟩ | ⟨r, rest, i, hp, -, hx⟩ | ⟨c, rest, hp, hx⟩ | ⟨rest, hp, rfl⟩ |
    ⟨rest, hp, rfl⟩ := hidle
  · rw [hp, List.tail_nil]
  · rw [hp, exec_pending hx, List.tail_cons]
  · rw [hp, State.acceptInstr_pending hx, List.tail_cons]
  · rw [hp, execCall_pending hx, List.tail_cons]
  · rw [hp, List.tail_cons]
  · rw [hp, List.tail_cons]

/-- Settles O4: with nothing presented the step is the identity, and no input touches the queue behind it. -/
theorem idleBlockActsOnlyOnRequests : Obligations.IdleBlockActsOnlyOnRequests := by
  refine ⟨fun s => step_nothing, fun s t i rest hb hp h => ?_, fun s rest => step_untilIdle⟩
  rw [step_pending_of_idle hb h, hp, List.tail_cons]

/-! ### The configuration error (R272) -/

@[simp] theorem State.unsent_responses (s : State) :
    s.unsent.responses = s.responses ++ [⟨.unavailable, none⟩] := rfl

theorem State.updateEngine_responses (s : State) (e : Nat) (E : Engine) :
    (s.updateEngine e E).responses = s.responses := by
  obtain h | h := s.updateEngine_cases e E <;> simp [h]

/-- Without a sink a facade row on an entity that answers next adds the word it formed and the refused transmit, and
then at most updates its entity (R223). -/
theorem exec_onEntity_unsent {i : Instr} {e : Nat} {s t : State} (he : entity i = some e) (hs : s.sinkEn = false)
    (h : exec i s = .next t) :
    ∃ w, t = (s.answered w).unsent ∨ ∃ F, t = (s.answered w).unsent.updateEngine e F := by
  obtain ⟨r, hx⟩ | ⟨E, w, bytes, -, -, hx | ⟨F, -, hx⟩⟩ := exec_onEntity he s.engines <;>
    rw [hx s rfl] at h <;> cases h
  · exact ⟨w, .inl (State.transmit_answered_unsent w bytes hs)⟩
  · exact ⟨w, .inr ⟨F, by rw [State.transmit_answered_unsent w bytes hs]⟩⟩

/-- The transmit responds after the codec operation, so its UNAVAILABLE is the last response (R272; log 18). -/
theorem exec_onEntity_unavailable {i : Instr} {e : Nat} {s t : State} (he : entity i = some e)
    (hs : s.sinkEn = false) (h : exec i s = .next t) :
    t.sinkTrace = s.sinkTrace ∧ t.diagTrace = s.diagTrace ++ [.noSink] ∧
      t.responses.getLast? = some ⟨.unavailable, none⟩ := by
  obtain ⟨w, rfl | ⟨F, rfl⟩⟩ := exec_onEntity_unsent he hs h
  · simp
  · obtain ⟨hsink, hdiag, -⟩ := State.updateEngine_frame (s.answered w).unsent e F
    rw [hsink, hdiag, State.updateEngine_responses]
    simp

/-- Settles O27: a transmit row is one transmit, a facade row on an entity one after a codec response, and the other
rows answer a word or attach the sink. -/
theorem transmitWithoutSinkSendsNothing : Obligations.TransmitWithoutSinkSendsNothing := by
  refine ⟨fun i hi hfits s hs => ?_, fun i e s t => exec_onEntity_unavailable, fun i s hi => ?_⟩
  · obtain ⟨bytes, -, hx⟩ := exec_transmits hi hfits
    exact exec_unsent_of_transmit (hx s) hs
  · obtain hcodec | hattach := hi
    · obtain ⟨w, hx⟩ := codecOperationsTouchNothing i hcodec
      exact ⟨_, _, hx s, rfl, rfl, rfl, rfl⟩
    · exact ⟨_, _, exec_of_attaches hattach s, rfl, rfl, rfl, rfl⟩

/-! ### Bursts that end, and bursts that do not (R203, R288) -/

/-- Settles O57: the run of the raw request, its bound and the trace of its end. -/
theorem rawBurstEndsInBoundedSteps : Obligations.RawBurstEndsInBoundedSteps := by
  intro s r h hb hs hp hfair hop hlo hhi
  obtain ⟨k, ready, hk, hrun⟩ := run_rawRequest h hb hs hp hfair hop ((rawLengthOk_iff _).2 ⟨hlo, hhi⟩)
  exact ⟨k, _, hk, by omega, hrun, (State.phase_idle_iff _).2 hb, rfl⟩

theorem State.readyAt_drop (s : State) (k j : Nat) :
    ({ s with sinkReady := s.sinkReady.drop k } : State).readyAt j = s.readyAt (k + j) := by
  simp [State.readyAt]

theorem State.SinkStuck.drop {s : State} (h : s.SinkStuck) (k : Nat) :
    ({ s with sinkReady := s.sinkReady.drop k } : State).SinkStuck := fun j => by
  rw [State.readyAt_drop]; exact h (k + j)

/-- Before a stuck sink every step of phase EMIT is a stall, which uses one listed step of the readiness (R194). -/
theorem run_stuck {s : State} (hp : s.phase = .emit) (hu : s.undisturbed = true) (hstuck : s.SinkStuck) (k : Nat) :
    run k s = .next { s with sinkReady := s.sinkReady.drop k } := by
  induction k generalizing s with
  | zero => rfl
  | succ k ih =>
    have hstep : step s = .next { s with sinkReady := s.sinkReady.tail } := by
      rw [step_busy (State.busy_of_emit hp) hu, State.tick_stalled hp hstuck.snkReady]
    rw [run_succ hstep, ih (s := { s with sinkReady := s.sinkReady.tail }) hp hu hstuck.tail, List.drop_tail]

/-- Settles O58: `run_stuck`, and neither the phase nor the byte offered reads the readiness. -/
theorem stalledBurstStaysStuck : Obligations.StalledBurstStaysStuck :=
  fun _ hp hu hstuck k => ⟨_, run_stuck hp hu hstuck k, rfl, hp, rfl, rfl, hstuck.drop k⟩

end Sys2Proof.Machine

/-! Reset and hazards (70_reset_and_hazards.md): which rows answer in every state (R281, R303), the reset input in phase
IDLE (R300, R302), and the inputs that have no meaning: reset in a burst (R301), and two requests at once (R308). -/

namespace Sys2Proof.Machine

/-! ### Block operations complete (R282, R303) -/

/-- Settles O34: each shape of `exec_withoutEntity` answers next or refuses in every state, and only the raw list out of
range refuses. -/
theorem blockOperationsCompleteInEveryState : Obligations.BlockOperationsCompleteInEveryState := by
  intro i hi s
  obtain ⟨hfits, -, w, hx⟩ | ⟨hfits, -, hx⟩ | ⟨hfits, -, bytes, -, hx⟩ | ⟨hfits, r, hx⟩ := exec_withoutEntity hi
  case inr.inr.inr => simp [hx s, hfits]
  all_goals exact ⟨fun _ => hfits, fun _ => ⟨_, hx s⟩⟩

/-! ### Reset, and two requests at once (R300, R301, R308) -/

section
variable {s : State} {rest : List Input}

theorem step_reset (hb : s.busy = false) (hp : s.pending = .reset :: rest) :
    step s = .next ({ s with pending := rest } : State).afterReset := by
  simp [step, hb, State.takeInput, hp]

theorem step_resetDuringBurst (hb : s.busy = true) (hp : s.pending = .reset :: rest) :
    step s = .refused .resetDuringBurst := by
  simp [step, hb, State.whileBusy, hp]

theorem step_together {p q : Request} (hp : s.pending = .together p q :: rest) :
    step s = .refused .twoRequestsAtOnce := by
  cases hb : s.busy
  · simp [step, hb, State.takeInput, hp]
  · simp [step, hb, State.whileBusy, hp]

/-- In a burst `untilIdle` holds back what follows it: the sequencer steps on and the queue stays (R202; log 30). -/
theorem step_untilIdle_busy (hb : s.busy = true) (hp : s.pending = .untilIdle :: rest) :
    step s = .next s.tick ∧ s.tick.pending = s.pending := by
  have hstep : step s = .next s.tick := step_busy hb (by simp [State.undisturbed, hp])
  obtain ⟨-, hpending, -⟩ := busyBlockTakesNoRequest s s.tick hb hstep
  exact ⟨hstep, hpending⟩

end

/-- Settles O1: `step_reset`, and each register of the state after is read off `State.reset`. -/
theorem resetGivesIdleBlockWithoutSink : Obligations.ResetGivesIdleBlockWithoutSink :=
  fun _ _ hb hp => ⟨_, Config.wordRegReset, step_reset hb hp, rfl, rfl, rfl, rfl, rfl, rfl, rfl, rfl, rfl, rfl, rfl, rfl⟩

/-- Settles O2: each clause is the step on that head of the queue; in phase IDLE `untilIdle` is taken, then the reset. -/
theorem resetInBurstAndTwoRequestsAreRefused : Obligations.ResetInBurstAndTwoRequestsAreRefused := by
  refine ⟨fun s rest => step_resetDuringBurst, fun s p q rest => step_together, fun s rest hp => ?_⟩
  refine ⟨fun hb => step_untilIdle_busy hb hp, fun hb => ?_⟩
  exact ⟨_, _, step_untilIdle hb hp, step_reset hb rfl, rfl, rfl⟩

end Sys2Proof.Machine
